-- ==== Sys2Proof/Word.lean ====
section
/-!
DEFINITION. The words of the Keystone (R10): the 18-bit word, the 36-bit double word and the
17-bit tile memory address, with the plain splits and joins the manual uses everywhere.
-/

namespace Sys2Proof

/-- The native word of 18 bits, numbered 17 down to 0 (R10). -/
abbrev Word := BitVec 18

/-- A double word of 36 bits; its low word is at the lower address (R10). -/
abbrev Dword := BitVec 36

/-- A word address in tile code or data memory (R101, R115): 131,072 words. -/
abbrev Addr := BitVec 17

/-- A tile register field of an instruction (R104): g0 to g7. -/
abbrev Reg := BitVec 3

/-- The 18-bit word of a natural number, modulo 262,144. -/
abbrev word (n : Nat) : Word := BitVec.ofNat 18 n

/-- The double word of a low and a high word (R10). -/
def joinDword (lo hi : Word) : Dword := hi ++ lo

/-- Bits 17:0 of a double word. -/
def dwordLow (d : Dword) : Word := d.extractLsb' 0 18

/-- Bits 35:18 of a double word. -/
def dwordHigh (d : Dword) : Word := d.extractLsb' 18 18

/-- Bits `hi:lo` of a word, as a number. -/
def bitsOf (w : Word) (hi lo : Nat) : Nat := w.toNat / 2 ^ lo % 2 ^ (hi + 1 - lo)

/-- One bit of a word. -/
def bitOf (w : Word) (i : Nat) : Bool := w.getLsbD i

/-- The number 1 for true and 0 for false, as register fields show flags. -/
def flagNat (b : Bool) : Nat := if b then 1 else 0

/-- The low and the high 18-bit word of a count of up to 36 bits. -/
def lowWord (n : Nat) : Word := word n

/-- The high word of a count of up to 36 bits. -/
def highWord (n : Nat) : Word := word (n / 2 ^ 18)

/-- A 36-bit count of a low and a high word. -/
def joinNat (lo hi : Word) : Nat := lo.toNat + hi.toNat * 2 ^ 18

end Sys2Proof
end

