-- ==== Sys2Proof/Config.lean ====
section
/-!
DEFINITION. The constants of the part, and the free values: opaque constants without a body for what
the spec leaves open, so that nothing can be proved of their value.
-/

namespace Sys2Proof

/-- Cycles of one bank-to-memory drain step: 8 stores per cycle (R146). -/
def Config.drainRate : Nat := 8

/-- Entries of a signature window (R147): the close by time and the close by stores. -/
def Config.windowCycles : Nat := 2048

/-- Stores that close a window (R147). -/
def Config.windowStores : Nat := 512

/-- Tick number modulus, 36 bits (R44). -/
def Config.tickModulus : Nat := 2 ^ 36

/-- Free value: extra cycles of a far access beyond 6, before reduction to 0–6 (R117: 6–12 cycles). -/
opaque Config.farExtra : Nat → Nat

/-- Free value: what a timer whose START lies after now counts as elapsed, before the preset bounds it, from now, START and the
tick period (R90, R91: the difference is negative). -/
opaque Config.elapsedBefore : Nat → Nat → Nat → Nat

/-- Free value: a word the spec leaves open, numbered by the counter `State.fresh`. -/
opaque Config.freeWord : Nat → BitVec 18

/-- Free value: the CODE word of an event the spec names without a code, by the event's number. -/
opaque Config.eventCode : Nat → BitVec 18

/-- Free value: a sample before it saturates, from the sums of its channel's sinc filter, newest first; the spec gives no
coefficients for the filter that compensates its droop (R383). -/
opaque Config.droop : List Nat → Int

/-- Free value: a voltage delayed by a quarter period of NOMF (0: 50 Hz, 1: 60 Hz), from the channel's samples, newest
first; the spec gives no coefficients for its filter (R385). -/
opaque Config.quarterDelay : Nat → List Int → Int

/-- Free value: a current shifted in time by PHC / 1,024 of a sample period, from its samples, newest first; the spec
does not say how it interpolates (R384). -/
opaque Config.phaseShift : Int → List Int → Int

/-- Free value: the rate of the slew toward train time in ppm, before it is bounded by 500 (R444: up to 500 ppm). -/
opaque Config.slewRate : Nat

/-- Free value: the frequency of V1 in 0.001 Hz, from its samples, newest first (R389). -/
opaque Config.frequency : List Int → Nat

/-- Free value: the fingerprint of the installation anchor in the factory data (R465). -/
opaque Config.factoryAnchor : Nat

/-- Free value: the 72-bit fingerprint of the device certificate, as four words (R459). -/
opaque Config.deviceFp : Nat → BitVec 18

/-- Free value: the MAC address of a port, numbered as the connector numbers it (R203). -/
opaque Config.portMac : Nat → BitVec 48

/-- Free value: the block that PB_READ finds at a page of the firmware's area, as w2 and its data, none for an absent one, by the page
and the counter `State.fresh`; the spec does not give the layout of these blocks (R415). -/
opaque Config.firmwareBlock : Nat → Nat → Option (List (BitVec 18))

/-- Free value: the words of the device certificate and its chain (R458). -/
opaque Config.deviceChain : List (BitVec 18)

/-- Free value: the revision number of the processor package (ID_FEAT3). -/
opaque Config.packageRevision : BitVec 9

end Sys2Proof
end

