-- ==== Sys2Proof/Machine/Table.lean ====
section
/-!
DEFINITION. Sparse tables: a list of (key, entry) pairs with strictly rising keys and no entry equal
to what an unlisted key reads as, so that equal tables are equal lists. Memories, images, register
files and the arrays of rings, channels, locks, stations and tiles are held in this one form.
-/

namespace Sys2Proof.Machine

/-- A sparse table from natural keys, in one canonical form (`Tbl.wf`). -/
abbrev Tbl (α : Type) := List (Nat × α)

/-- The entry at a key; an unlisted key reads as the default `d`. -/
def Tbl.get {α : Type} (d : α) : Tbl α → Nat → α
  | [], _ => d
  | (k, v) :: rest, i => if k = i then v else Tbl.get d rest i

/-- A table without the entry at a key. -/
def Tbl.erase {α : Type} : Tbl α → Nat → Tbl α
  | [], _ => []
  | (k, v) :: rest, i => if k = i then Tbl.erase rest i else (k, v) :: Tbl.erase rest i

/-- An entry put in its place among rising keys. -/
def Tbl.insert {α : Type} : Tbl α → Nat → α → Tbl α
  | [], i, x => [(i, x)]
  | (k, v) :: rest, i, x => if i < k then (i, x) :: (k, v) :: rest else (k, v) :: Tbl.insert rest i x

/-- Write one entry, keeping the canonical form: the default value leaves no entry. -/
def Tbl.set {α : Type} [DecidableEq α] (d : α) (m : Tbl α) (i : Nat) (x : α) : Tbl α :=
  if x = d then m.erase i else (m.erase i).insert i x

/-- The canonical form: keys from `b` upward, strictly rising, and no entry equal to the default. -/
def Tbl.wfFrom {α : Type} [DecidableEq α] (d : α) : Nat → Tbl α → Bool
  | _, [] => true
  | b, (k, v) :: rest => decide (b ≤ k) && decide (v ≠ d) && Tbl.wfFrom d (k + 1) rest

/-- The canonical form of a table with default `d`. -/
def Tbl.wf {α : Type} [DecidableEq α] (d : α) (m : Tbl α) : Bool := Tbl.wfFrom d 0 m

/-- Write consecutive entries from key `i` upward. -/
def Tbl.setMany {α : Type} [DecidableEq α] (d : α) (m : Tbl α) (i : Nat) : List α → Tbl α
  | [] => m
  | x :: xs => Tbl.setMany d (Tbl.set d m i x) (i + 1) xs

/-- Read `n` consecutive entries from key `i` upward. -/
def Tbl.getMany {α : Type} (d : α) (m : Tbl α) (i : Nat) : Nat → List α
  | 0 => []
  | n + 1 => Tbl.get d m i :: Tbl.getMany d m (i + 1) n

/-- Apply a function to every listed entry, dropping the entries that become the default. -/
def Tbl.mapEntries {α : Type} [DecidableEq α] (d : α) (f : Nat → α → α) : Tbl α → Tbl α
  | [] => []
  | (k, v) :: rest =>
    let w := f k v
    if w = d then Tbl.mapEntries d f rest else (k, w) :: Tbl.mapEntries d f rest

/-- Keep the entries whose key and value satisfy a test. -/
def Tbl.keep {α : Type} (p : Nat → α → Bool) (m : Tbl α) : Tbl α := m.filter fun e => p e.1 e.2

/-- The listed keys. -/
def Tbl.keys {α : Type} (m : Tbl α) : List Nat := m.map Prod.fst

end Sys2Proof.Machine
end

