-- ==== Sys2Proof/Syntax.lean ====
section
/-!
DEFINITION. The commands of the block: one constructor of `Instr` per row of spec/opcode_table.json,
with the operands each row needs. Facts that only the outside world knows (a frame that arrived, the
result of a signature check, a level on a pin, an elapsed time) travel as operands of the command.
-/

namespace Sys2Proof

/-- A descriptor of a command ring or of a tile post (R275): w0 CODE, w1 TAG, w2–w5 A0–A3, w6–w7 BUF. -/
structure Desc where
  code : Word
  tag : Word
  a0 : Word
  a1 : Word
  a2 : Word
  a3 : Word
  buf : Dword
deriving DecidableEq, Repr

/-- Who posted a descriptor: a command ring slot (R276), a tile, by the task of its activation (R280, R431), or a service session (R469). -/
inductive Origin where
  | ring (slot : Nat)
  | tile (t task : Nat)
  | session (id : Nat)
deriving DecidableEq, Repr

/-- A descriptor as its engine executes it: where it came from, its words, and the words its buffer
holds (host memory and the ring area lie outside the block, so the command carries what is read). -/
structure Req where
  origin : Origin
  desc : Desc
  data : List Word
deriving DecidableEq, Repr

/-- One slot entry of a run or start table (R54). -/
structure SlotEntry where
  kind : Nat
  task : Nat
  period : Nat
  phase : Nat
  entry : Nat
  offset : Nat
  budget : Nat
deriving DecidableEq, Repr

/-- The four trigger kinds of an event task (R52). -/
inductive TriggerKind where
  | rising
  | falling
  | either
  | change
deriving DecidableEq, Repr

/-- A bit reference (R93): AREA in bits 17:15 and INDEX in bits 14:0 of its first word, BIT in bits 4:0 of its second. -/
structure BitRef where
  w0 : Word
  w1 : Word
deriving DecidableEq, Repr

/-- AREA: 0 input image, 1 output image, 2 exchange area. -/
def BitRef.area (r : BitRef) : Nat := bitsOf r.w0 17 15

/-- INDEX; an exchange index above 8,191 is taken as 8,191. -/
def BitRef.index (r : BitRef) : Nat := if r.area = 2 then min 8191 (bitsOf r.w0 14 0) else bitsOf r.w0 14 0

/-- BIT; 18 to 31 are taken as 17. -/
def BitRef.bit (r : BitRef) : Nat := min 17 (bitsOf r.w1 4 0)

/-- One trigger: an input image bit, or a word for `change` (R52). -/
structure Trigger where
  kind : TriggerKind
  ref : BitRef
deriving DecidableEq, Repr

/-- A range of image or exchange words: AREA 0 input, 1 output, 2 exchange (R93). -/
structure WordRange where
  area : Nat
  first : Nat
  len : Nat
deriving DecidableEq, Repr

/-- What a program declares of one task: its write set (R65) and its triggers (R52). -/
structure TaskDecl where
  task : Nat
  writes : List WordRange
  triggers : List Trigger
deriving DecidableEq, Repr

/-- The tables of one tile in a package (R169): run table and start table in the layout of R54, SBLO and SBHI. -/
structure TileTables where
  tile : Nat
  run : List Word
  start : List Word
  sblo : Nat
  sbhi : Nat
deriving DecidableEq, Repr

/-- A code segment of a package (R169): its tile, start address and words. -/
structure Segment where
  tile : Nat
  start : Nat
  words : List Word
deriving DecidableEq, Repr

/-- One entry of a package's symbol table (R169): AREA 0 input, 1 output, 2 exchange, 3 tile data. -/
structure Symbol where
  id : Nat
  area : Nat
  tile : Nat
  addr : Nat
  len : Nat
  meaning : Word
  init : List Word
  reinit : Bool
deriving DecidableEq, Repr

/-- The proof data of a package (R169, R57): bounds per tile and code address. -/
structure ProofData where
  /-- (tile, head address, bound) of each loop (R511); also the largest CT of a REP at its address. -/
  loops : List (Nat × Nat × Nat)
  /-- (tile, address of the indirect branch, targets). -/
  jumps : List (Nat × Nat × List Nat)
  /-- (tile, address) of each divide whose divisor is proved non-zero. -/
  nonZero : List (Nat × Nat)
  /-- (first word, WCET) of each emulated instruction (R136). -/
  emulated : List (Word × Nat)
  /-- (task, area, first, last) : the range that bounds the far stores of a task (R120). -/
  farRanges : List (Nat × Nat × Nat × Nat)
deriving DecidableEq, Repr

/-- The disposition of one force (R190): KEEP or CLEAR, for a word or a bit of an image. -/
structure Disposition where
  word : Bool
  ref : BitRef
  keep : Bool
deriving DecidableEq, Repr

/-- A release value: an output (AREA 1) or exchange (AREA 2) word that loses its writer (R169, R178). -/
structure Release where
  area : Nat
  index : Nat
  value : Word
deriving DecidableEq, Repr

/-- A package (R169). The file layout around these parts is the engineering tool's. -/
structure Package where
  full : Bool
  id : Nat
  base : Nat
  level : Nat
  /-- Whether the 36-bit check value over the package agrees. -/
  checkOk : Bool
  segments : List Segment
  /-- Per tile, code words 0o00–0o77 (R130). -/
  vectors : List (Nat × List Word)
  tables : List TileTables
  tasks : List TaskDecl
  symbols : List Symbol
  proof : ProofData
  releases : List Release
  dispositions : List Disposition
deriving DecidableEq, Repr

/-- The loaded program (R168, R169): identity, activations since the full load, and the declarations the
loader keeps. Code, tables and stack bounds stand in the tiles' memories. -/
structure Program where
  loaded : Bool := false
  id : Nat := 0
  gen : Nat := 0
  level : Nat := 1
  segments : List Segment := []
  symbols : List Symbol := []
  tasks : List TaskDecl := []
  proof : ProofData := { loops := [], jumps := [], nonZero := [], emulated := [], farRanges := [] }
deriving DecidableEq, Repr

/-- A word that a tile reads (R135, R142, R143): of its data or code memory, of mortar memory by AREA and index, or of its
checkpoint file. -/
inductive MemPlace where
  | data (t : Nat) (a : BitVec 17)
  | code (t : Nat) (a : BitVec 17)
  | mortar (area index : Nat)
  | checkpoint (t : Nat)
deriving DecidableEq, Repr

/-- A memory error that the next read of a word meets (R143). -/
structure Upset where
  place : MemPlace
  correctable : Bool
deriving DecidableEq, Repr

/-- Time that has passed since the last command that carries it: counts of the clock's oscillator, 2⁻¹⁵ s each, before the
corrections of RTC_CAL and of the slew (R437, R439, R444), and whole periods of the watchdog's clock, 1 µs each (R448); and the memory errors that arose in it (R143). -/
structure Elapsed where
  counts : Nat
  us : Nat
  upsets : List Upset := []
deriving DecidableEq, Repr

/-- The close of a tile's window (R148): what a fault of its main core and of its checker has changed in each core's signature, as
bits inverted, and whether a reserve bond that takes the tile passes its entry check (R151, R153). -/
structure Compare where
  main : Dword := 0
  checker : Dword := 0
  entryOk : Bool := true
deriving DecidableEq, Repr

/-- A word of op 0 whose bits 11:6 R111 leaves free (RETT, BRK), on a tile. -/
structure BareWord where
  tile : Nat
  ab : BitVec 6
deriving DecidableEq, Repr

/-- How a domain was lost (R491): by its current limit, and for PD0 whether the backup source takes it over. -/
structure DomainLoss where
  limit : Bool
  backup : Bool
deriving DecidableEq, Repr

/-- A withdraw and the receiver of an ACK that reaches the channel in the same cycle (R286). -/
structure Withdrawal where
  y : Bool
  ack : Option Nat := none
deriving DecidableEq, Repr

/-- What a certificate chain ends at (R463): nothing accepted, an installation anchor of a fingerprint, or a maker key. -/
inductive Root where
  | none
  | anchor (fp : Nat)
  | maker (key : Nat)
deriving DecidableEq, Repr

/-- A certificate as a credential presents it (R459, R463): where its chain ends, the role it names (1 operator,
2 installer, 3 maker, 0 not exactly one), its 72-bit fingerprint, and its validity period in seconds of the
real-time clock. -/
structure Certificate where
  root : Root
  role : Nat
  fp : Nat
  notBefore : Nat
  notAfter : Nat
deriving DecidableEq, Repr

/-- A manifest of a transfer (R462, R470): a number that stands for its content, the maker key that signed it if its
signature is good, the version, SVN and RAISE, the lowest and highest format accepted of each settings block listed,
the number of blocks, and for a program package whether it is a full one. -/
structure Manifest where
  content : Nat
  signer : Option Nat
  major : Nat
  minor : Nat
  svn : Nat
  raise : Bool
  formats : List (Nat × Nat × Nat)
  blocks : Nat
  full : Bool
deriving DecidableEq, Repr

/-- A settings block found at a start (R478): its number, its FORMAT, and the registers whose settings it holds. -/
structure SettingsBlock where
  block : Nat
  format : Nat
  registers : List Nat
deriving DecidableEq, Repr

/-- A station's answer in a survey exchange (R216): its link and position, the copy's times t_e and t_r in 2.5 ns (R214), its
DELTA and its SEPOCH. -/
structure SurveyAnswer where
  link : Nat
  pos : Nat
  te : Nat
  tr : Nat
  delta : Nat
  sepoch : Nat
deriving DecidableEq, Repr

/-- What a start finds outside the block (R30): time passed, feed and bank voltages in 0.1 V, whether each firmware
slot's signature and digests verify, the settings blocks with their formats, the bonds that fail their test as die,
position and verdict, the tiles whose bond mismatches during restore with whether the reserve bond passes its entry check
(R41), the link ports brought up at step 7, and what the stations answered to the survey (R216, R240). -/
structure StartInputs where
  el : Elapsed
  voltsA : Nat
  voltsB : Nat
  hold : Nat
  slotAOk : Bool
  slotBOk : Bool
  settings : List SettingsBlock
  failed : List (Nat × Nat × Nat)
  mismatches : List (Nat × Bool) := []
  ports : List Nat := []
  survey : List SurveyAnswer := []
deriving DecidableEq, Repr

/-- What a tick boundary brings from outside (R46, R312, R404): time passed, the time e from the nearest aligned
instant to T0 in ns, and the UTC of train time. -/
structure BoundaryInputs where
  el : Elapsed
  e : Int
  utcSec : Nat
  utcSub : Nat
deriving DecidableEq, Repr

/-- What a health report takes from measurements outside the block (R260): errors corrected and found uncorrectable by
memory scrub since start, frames failing checks and the longest heartbeat gap in 0.25 µs of each arch link in the last
second, the clock oscillator's offset in 0.1 ppm, and the backup hours estimated. -/
structure HealthFacts where
  scrc : Nat
  scru : Nat
  errA : Nat
  errB : Nat
  gapA : Nat
  gapB : Nat
  osc : Int
  bkh : Nat
deriving DecidableEq, Repr

/-- What the latch instant brings from outside: time passed, and the UTC of train time (R70, R311). -/
structure LatchInputs where
  el : Elapsed
  utcSec : Nat
  utcSub : Nat
deriving DecidableEq, Repr

/-- The class of a feed (R484). -/
inductive FeedClass where
  | absent | inRange | outOfRange | reversed
deriving DecidableEq, Repr

/-- The tile registers a debugger can write (R101, R163). -/
inductive DebugReg where
  | g (r : Reg)
  | pc
  | fl
  | ct
  | rc
deriving DecidableEq, Repr

/-- An I-block (R208), as received. -/
structure IBlock where
  pos : Nat
  valid : Bool
  stale : Bool
  new : Bool
  osafe : Bool
  delta : Nat
  sepoch : Nat
  words : List Word
deriving DecidableEq, Repr

/-- One I-form segment as it arrives (R203, R205, R212): its EtherType, its own copy or one forwarded by the partner, whether
its FCS is good, whether it came after T_in − 2 µs, the times t_e and t_r of R214 in 2.5 ns, TURNER, and its blocks. -/
structure IForm where
  etype : Nat := 0x88B5
  forwarded : Bool
  fcsOk : Bool
  late : Bool
  te : Nat
  tr : Nat
  turner : Nat
  blocks : List IBlock
deriving DecidableEq, Repr

/-- One O-block (R207). -/
structure OBlock where
  pos : Nat
  en : Bool
  offset : Nat
  iwords : Nat
  words : List Word
deriving DecidableEq, Repr

/-- What stands in every header of a form (R206). -/
structure FormHeader where
  kind : Nat
  atEnd : Bool
  safe : Bool
  link : Nat
  survey : Bool
  ring : Bool
  tick : Nat
  epoch : Nat
  latch : Nat
  turner : Nat
  period : Nat
  tmo : Nat
deriving DecidableEq, Repr

/-- A copy of an O-form that has reached a port (R203, R209): its EtherType, its header and its O-blocks. -/
structure OForm where
  etype : Nat
  header : FormHeader
  blocks : List OBlock
deriving DecidableEq, Repr

/-- An acyclic frame (R203, R228): its EtherType and the words of its payload. -/
structure AcyclicFrame where
  etype : Nat
  words : List Word
deriving DecidableEq, Repr

/-- An acyclic request the primary hands to its partner, whose end sends the retries (R229). -/
structure AcyclicCall where
  pos : Nat
  service : Nat
  tag : Nat
  param : Nat
  words : List Word
deriving DecidableEq, Repr

/-- A turn to send on a link (R229): the time from T0 in 2.5 ns, and on the partner's end the request its primary handed to it. -/
structure AcyclicTurn where
  link : Nat
  time : Nat
  relayed : Option AcyclicCall := none
deriving DecidableEq, Repr

/-- The other end's copy at a ring port, and whether the port's T0 is held to that end's T0 (R211). -/
structure PortCopy where
  synced : Bool
  copy : OForm
deriving DecidableEq, Repr

/-- The header and O-blocks of one link as the primary relays them (R210). -/
structure Relay where
  link : Nat
  tick : Nat
  epoch : Nat
  safe : Bool
  blocks : List OBlock
deriving DecidableEq, Repr

/-- What two Keystones learn of each other when they pair (R237): whether the partner's certificate verifies, and its 72-bit
fingerprint; whether each firmware accepts the other's arch protocol level; the partner's ARCH, SIDE and epoch, its tick set-up
values, SL_ETYPE, SL_CFG0–SL_CFG15 and its station table by 4i + w (0 where not named), the tiles it runs and those its tables
name, its TF_LEVEL word (level and course format, R137); and the links with their delays in 25 ns. -/
structure PairingFacts where
  verifies : Bool
  fingerprint : Nat
  levelOk : Bool
  arch : Bool
  side : Bool
  epoch : Nat
  period : Nat
  latch : Nat
  inwin : Nat
  lock : Bool
  etype : Nat
  linkCfg : List Word
  stations : List (Nat × Word)
  tiles : Nat
  tableTiles : List Nat
  level : Word
  linkA : Bool
  linkB : Bool
  delayA : Nat
  delayB : Nat
deriving DecidableEq, Repr

/-- A heartbeat (R242). -/
structure Heartbeat where
  mode : Nat
  lstate : Nat
  side : Bool
  rel : Bool
  syn : Bool
  tick : Nat
  phase : Nat
  epl : Nat
deriving DecidableEq, Repr

/-- What a synchronisation pass carries of the holder's working state (R239, R426). -/
inductive SyncItem where
  | data (tile addr : Nat) (ws : List Word)
  | code (tile addr : Nat) (ws : List Word)
  /-- AREA 0 input, 1 output, 2 exchange. -/
  | image (area index : Nat) (ws : List Word)
  /-- The program's declarations, its identity and its generation. -/
  | program (p : Program)
  /-- The schedule tables of a tile. -/
  | tables (tile sblo sbhi : Nat) (run start : List SlotEntry)
  /-- Task states: consecutive overruns by task, the error summaries, triggers not yet evaluated, the inauguration count. -/
  | tasks (overruns : List (Nat × Nat)) (errNow errLast : Word) (newTriggers : List (Nat × Trigger)) (inaug : Nat)
  /-- The force table, in the layout of R182. -/
  | forces (entries : List (List Word))
  | count (n : Nat)
  /-- A spread counter's current value and serial. -/
  | counter (k value serial : Nat)
  /-- The accumulators in 2⁻³⁶ of their unit; the pulse outputs' ticks, remainders and constants; the window's samples; the stamp
  of the last one counted; the open interval's start, end, FLAGS and COUNT; the log's next sequence number, the last interval's, and
  its records; the index of the last sample and its stamp in tick time, in ns (R386, R388, R390–R393). -/
  | metering (acc : List Nat) (pulses : List (Option Nat × Nat × Nat)) (window : List (Int × Int)) (last : Nat × Nat)
      (interval : Option (Nat × Nat × Nat × Nat × Nat)) (seq lastInterval : Nat) (log : List (List Word)) (index : Nat) (stamp : Int)
deriving DecidableEq, Repr

/-- A ledger entry (R247). -/
inductive LedgerEntry where
  | image (index : Nat) (ws : List Word)
  /-- (tile, task, tick number low word). -/
  | overrun (l : List (Nat × Nat × Nat))
  /-- Force entries of eight words; w7 bit 0 set for a clear. -/
  | force (l : List (List Word))
  | activate (id tick : Nat)
  /-- 1 stop, 2 handover, 3 update, and the boundary tick. -/
  | mode (k tick : Nat)
  | start (v : Nat)
  | meter (boundary : Nat)
deriving DecidableEq, Repr

/-- The close of a ledger (R247). -/
structure LedgerClose where
  tick : Nat
  epoch : Nat
  bodyWords : Nat
  entries : Nat
  check : Dword
deriving DecidableEq, Repr

/-- A write the holder forwards to its tracked partner (R426). -/
inductive Forwarded where
  | increment (counter delta : Nat)
  | block (page format : Nat) (ws : List Word)
deriving DecidableEq, Repr

/-- Where a master addresses a set-up register (R13, R267): by index, or from the host link by byte offset with the number
of DWORDs of the access and whether every byte of them is enabled. -/
inductive RegAddr where
  | index (i : Nat)
  | host (offset dwords : Nat) (allBytes : Bool)
deriving DecidableEq, Repr

/-- A read of a set-up register: the master, the session the foreman reads for, and the register. -/
structure BusRead where
  m : Nat
  session : Option Nat
  reg : RegAddr
deriving DecidableEq, Repr

/-- A write to a set-up register: the register, and the 32-bit slot, of which bits 17:0 are the value (R13). -/
structure SlotWrite where
  reg : RegAddr
  slot : BitVec 32
deriving DecidableEq, Repr

/-- A write of one master: its identity, the session the foreman writes for, and the write (R17, R505). -/
structure BusWrite where
  m : Nat
  session : Option Nat
  write : SlotWrite
deriving DecidableEq, Repr

/-- The plain reads and the other masters' writes of one cycle (R17, R506). -/
structure BusCycle where
  reads : List BusRead := []
  writes : List BusWrite := []
deriving DecidableEq, Repr

/-- The receive rings (R334). -/
inductive RxRing where
  | can
  | serial
  | message
deriving DecidableEq, Repr

/-- A topology as TTDP confirms it (R306, R307): consists and cars of the train, the own consist's position and
whether it is reversed, cars in the consists before it, the TTDP topology counter and the train directory. -/
structure Topology where
  consists : Nat
  position : Nat
  reversed : Bool
  carsBefore : Nat
  cars : Nat
  counter : Nat
  directory : List Word
deriving DecidableEq, Repr

/-- A CAN frame as it is received (R324, R325). -/
structure CanFrame where
  ide : Bool
  rtr : Bool
  fdf : Bool
  brs : Bool
  esi : Bool
  dlc : Nat
  id : Nat
  octets : List Nat
deriving DecidableEq, Repr

/-- A serial frame as it is received (R331): its characters and why it ended. -/
structure SerialFrame where
  chars : List Nat
  ferr : Bool
  perr : Bool
  brk : Bool
  more : Bool
deriving DecidableEq, Repr

/-- What the island finds in one cycle (R340–R343): pairs with a pulse missing and with a foreign pulse (bit i), sources
that fail their readback (bit k), outputs whose high or low side readback differs and those in overcurrent (bit k),
and SOV in range. -/
structure IslandInputs where
  missing : Nat
  foreign : Nat
  source : Nat
  high : Nat
  low : Nat
  excess : Nat
  sovOk : Bool
deriving DecidableEq, Repr

/-- What the modulator links bring in one sample period (R380, R383): the 256 frames of each link, oldest first, where bit k of a
frame is the line's level in its half cell k, in the order sent; how far the S cells of the two links stand apart, in ns; and the
arrival of the S cell that ends the period, in ns after T0 and in UTC as seconds and ns. -/
structure MeterSample where
  framesA : List (BitVec 16)
  framesB : List (BitVec 16)
  skew : Nat
  off : Nat
  sec : Nat
  ns : Nat
deriving DecidableEq, Repr

/-- The commands of the block, one constructor per row of the table of operations and events. -/
inductive Instr where
  /-- FEED_PRESENT (R485). -/
  | feedPresent (i : StartInputs)
  /-- BACKUP_ENTRY (R26). -/
  | backupEntry (external : Bool)
  /-- BACKUP_SOURCE_EXHAUSTED (R26). -/
  | backupSourceExhausted
  /-- BOOT_RETRY (R477). -/
  | bootRetry (i : StartInputs)
  /-- START_COMPLETE (R34). -/
  | startComplete (i : BoundaryInputs)
  /-- MODE_REQUEST (R27). -/
  | modeRequest (q : Req)
  /-- TICK_BOUNDARY (R46). -/
  | tickBoundary (i : BoundaryInputs)
  /-- FIELD_UPDATE_UNTICKED (R371). -/
  | fieldUpdateUnticked (el : Elapsed)
  /-- PULSE_END (R393). -/
  | pulseEnd (p : Nat)
  /-- LATCH_INSTANT (R46). -/
  | latchInstant (i : LatchInputs)
  /-- INPUT_IMAGE_CLOSE (R46). -/
  | inputImageClose (el : Elapsed)
  /-- SLOT_DISPATCH (R51). -/
  | slotDispatch (t slot : Nat)
  /-- BUDGET_OVERRUN (R59). -/
  | budgetOverrun (t : Nat)
  /-- WRITE_BEHIND_COPY (R73). -/
  | writeBehindCopy (lines : Nat)
  /-- CONSISTENCY_POINT_COMPLETE (R403). -/
  | consistencyPointComplete
  /-- WRITE_BEHIND_LAG (R77). -/
  | writeBehindLag
  /-- POWER_FAIL_TRIP (R485). -/
  | powerFailTrip (backup : Bool)
  /-- RIDE_THROUGH_RETURN (R485). -/
  | rideThroughReturn (duration lowest : Nat)
  /-- RIDE_THROUGH_END (R485). -/
  | rideThroughEnd
  /-- SEAL_COMPLETE (R407). -/
  | sealComplete (feed : Option StartInputs) (backup : Bool) (flush : Nat)
  /-- HOLD_UP_FAILURE (R41). -/
  | holdUpFailure (feed backup : Bool)
  /-- BANK_BELOW_RESERVE (R487). -/
  | bankBelowReserve (volts : Nat)
  /-- FEED_STATE_CHANGE (R484): the feed, its voltage in 0.1 V, negative when reversed, and whether it has stood above 137.5 V for
  100 ms. -/
  | feedStateChange (feed : Nat) (volts : Int) (raised : Bool)
  /-- DOMAIN_FAULT (R491). -/
  | domainFault (d : Nat) (x : DomainLoss)
  /-- DOMAIN_RETRY (R491). -/
  | domainRetry (d : Nat) (ok : Bool)
  /-- TEMPERATURE_THRESHOLD (R499). -/
  | temperatureThreshold (tempC : Int)
  /-- WINDOW_CLOSE (R147), with the closes of other tiles whose compares end in the same cycle (R154). -/
  | windowClose (t : Nat) (c : Compare) (others : List (Nat × Compare))
  /-- BANK_DRAIN_END (R148). -/
  | bankDrainEnd (t : Nat)
  /-- BOND_TEST_VERDICT (R157). -/
  | bondTestVerdict (die pos : Nat) (mainFails checkerFails : Bool)
  /-- FOREMAN_RESTART (R165). -/
  | foremanRestart
  /-- HOST_LINK_RESET (R165). -/
  | hostLinkReset
  /-- DEBUG_PORT_RESET (R165). -/
  | debugPortReset
  /-- DEBUG_REGISTER_WRITE (R163). -/
  | debugRegisterWrite (t : Nat) (r : DebugReg) (v : Word)
  /-- DEBUG_MEMORY_WRITE (R163). -/
  | debugMemoryWrite (t : Nat) (code : Bool) (addr : BitVec 17) (v : Word)
  /-- DEBUG_BREAKPOINT (R193). -/
  | debugBreakpoint (t : Nat) (addr : BitVec 17)
  /-- NOP (R111). -/
  | nop (t : Nat)
  /-- END (R111). -/
  | end_ (t : Nat)
  /-- RET (R111). -/
  | ret (t : Nat)
  /-- RETT (R133). -/
  | rett (w : BareWord)
  /-- BRK (R135). -/
  | brk (w : BareWord)
  /-- MOV (R111). -/
  | mov (t : Nat) (a b : Reg)
  /-- RDFL (R111). -/
  | rdfl (t : Nat) (a : Reg)
  /-- WRFL (R111). -/
  | wrfl (t : Nat) (b : Reg)
  /-- RDCT (R111). -/
  | rdct (t : Nat) (a : Reg)
  /-- WRCT (R111). -/
  | wrct (t : Nat) (b : Reg)
  /-- SWAP (R111). -/
  | swap (t : Nat) (a b : Reg)
  /-- MOVD (R111). -/
  | movd (t : Nat) (a b : Reg)
  /-- NOT (R111). -/
  | not_ (t : Nat) (a b : Reg)
  /-- NEG (R111). -/
  | neg (t : Nat) (a b : Reg)
  /-- MOVI (R111). -/
  | movi (t : Nat) (a : Reg) (imm : BitVec 6)
  /-- BR (R111). -/
  | br (t : Nat) (cc : BitVec 4) (off : BitVec 9)
  /-- BRA (R111). -/
  | bra (t : Nat) (off : BitVec 12)
  /-- BSR (R111). -/
  | bsr (t : Nat) (off : BitVec 12)
  /-- JMP (R111). -/
  | jmp (t : Nat) (b : Reg)
  /-- JSR (R111). -/
  | jsr (t : Nat) (b : Reg)
  /-- LOOP (R129). -/
  | loop (t : Nat) (off : BitVec 12)
  /-- REP (R126). -/
  | rep (t : Nat)
  /-- RDFEAT (R137). -/
  | rdfeat (t : Nat) (a : Reg) (n : BitVec 6)
  /-- ADD (R113). -/
  | add (t : Nat) (a b c : Reg)
  /-- ADC (R113). -/
  | adc (t : Nat) (a b c : Reg)
  /-- SUB (R113). -/
  | sub (t : Nat) (a b c : Reg)
  /-- SBC (R113). -/
  | sbc (t : Nat) (a b c : Reg)
  /-- AND (R113). -/
  | and_ (t : Nat) (a b c : Reg)
  /-- OR (R113). -/
  | or_ (t : Nat) (a b c : Reg)
  /-- XOR (R113). -/
  | xor_ (t : Nat) (a b c : Reg)
  /-- ANDN (R113). -/
  | andn (t : Nat) (a b c : Reg)
  /-- ADDS (R113). -/
  | adds (t : Nat) (a b c : Reg)
  /-- SUBS (R113). -/
  | subs (t : Nat) (a b c : Reg)
  /-- ADDUS (R113). -/
  | addus (t : Nat) (a b c : Reg)
  /-- SUBUS (R113). -/
  | subus (t : Nat) (a b c : Reg)
  /-- MIN (R113). -/
  | min_ (t : Nat) (a b c : Reg)
  /-- MAX (R113). -/
  | max_ (t : Nat) (a b c : Reg)
  /-- MINU (R113). -/
  | minu (t : Nat) (a b c : Reg)
  /-- MAXU (R113). -/
  | maxu (t : Nat) (a b c : Reg)
  /-- SHL (R113). -/
  | shl (t : Nat) (a b c : Reg)
  /-- SHR (R113). -/
  | shr (t : Nat) (a b c : Reg)
  /-- SAR (R113). -/
  | sar (t : Nat) (a b c : Reg)
  /-- ROL (R113). -/
  | rol (t : Nat) (a b c : Reg)
  /-- ROR (R113). -/
  | ror (t : Nat) (a b c : Reg)
  /-- SHLI (R113). -/
  | shli (t : Nat) (a b : Reg) (n : BitVec 6)
  /-- SHRI (R113). -/
  | shri (t : Nat) (a b : Reg) (n : BitVec 6)
  /-- SARI (R113). -/
  | sari (t : Nat) (a b : Reg) (n : BitVec 6)
  /-- ADDI (R113). -/
  | addi (t : Nat) (a b : Reg) (imm : BitVec 6)
  /-- CMP (R113). -/
  | cmp (t : Nat) (a b : Reg)
  /-- TST (R113). -/
  | tst (t : Nat) (a b : Reg)
  /-- CMPD (R113). -/
  | cmpd (t : Nat) (a b : Reg)
  /-- CMPI (R113). -/
  | cmpi (t : Nat) (a : Reg) (imm : BitVec 6)
  /-- MULS (R113). -/
  | muls (t : Nat) (a b c : Reg)
  /-- MULU (R113). -/
  | mulu (t : Nat) (a b c : Reg)
  /-- DIVS (R114). -/
  | divs (t : Nat) (a b c : Reg)
  /-- DIVU (R114). -/
  | divu (t : Nat) (a b c : Reg)
  /-- BTST (R113). -/
  | btst (t : Nat) (a : Reg) (n : BitVec 6)
  /-- BSET (R113). -/
  | bset (t : Nat) (a : Reg) (n : BitVec 6)
  /-- BCLR (R113). -/
  | bclr (t : Nat) (a : Reg) (n : BitVec 6)
  /-- BINV (R113). -/
  | binv (t : Nat) (a : Reg) (n : BitVec 6)
  /-- CLZ (R124). -/
  | clz (t : Nat) (a b : Reg)
  /-- CTZ (R124). -/
  | ctz (t : Nat) (a b : Reg)
  /-- POPC (R124). -/
  | popc (t : Nat) (a b : Reg)
  /-- BREV (R124). -/
  | brev (t : Nat) (a b : Reg)
  /-- SWN (R124). -/
  | swn (t : Nat) (a b : Reg)
  /-- SXO (R124). -/
  | sxo (t : Nat) (a b : Reg)
  /-- SXN (R124). -/
  | sxn (t : Nat) (a b : Reg)
  /-- ADDD (R113). -/
  | addd (t : Nat) (a b c : Reg)
  /-- SUBD (R113). -/
  | subd (t : Nat) (a b c : Reg)
  /-- ANDD (R113). -/
  | andd (t : Nat) (a b c : Reg)
  /-- ORD (R113). -/
  | ord_ (t : Nat) (a b c : Reg)
  /-- XORD (R113). -/
  | xord (t : Nat) (a b c : Reg)
  /-- LD (R115). -/
  | ld (t : Nat) (a b : Reg) (imm : BitVec 6)
  /-- ST (R115). -/
  | st (t : Nat) (a b : Reg) (imm : BitVec 6)
  /-- LDD (R115). -/
  | ldd (t : Nat) (a b : Reg) (imm : BitVec 6)
  /-- STD (R115). -/
  | std (t : Nat) (a b : Reg) (imm : BitVec 6)
  /-- PUSH (R118). -/
  | push (t : Nat) (a : Reg)
  /-- POP (R118). -/
  | pop (t : Nat) (a : Reg)
  /-- PUSHD (R118). -/
  | pushd (t : Nat) (a : Reg)
  /-- POPD (R118). -/
  | popd (t : Nat) (a : Reg)
  /-- LDC (R115). -/
  | ldc (t : Nat) (a b : Reg) (imm : BitVec 6)
  /-- LDN (R119). -/
  | ldn (t : Nat) (a b : Reg)
  /-- STN (R119). -/
  | stn (t : Nat) (a b : Reg)
  /-- LDNI (R119). -/
  | ldni (t : Nat) (a b : Reg)
  /-- STNI (R119). -/
  | stni (t : Nat) (a b : Reg)
  /-- FLD (R120). -/
  | fld (t : Nat) (a b : Reg)
  /-- FST (R120). -/
  | fst_ (t : Nat) (a b : Reg)
  /-- FLDD (R120). -/
  | fldd (t : Nat) (a b : Reg)
  /-- FSTD (R120). -/
  | fstd (t : Nat) (a b : Reg)
  /-- FLDI (R120). -/
  | fldi (t : Nat) (a b : Reg)
  /-- FSTI (R120). -/
  | fsti (t : Nat) (a b : Reg)
  /-- NPERM (R125). -/
  | nperm (t : Nat) (a b : Reg) (sel : BitVec 8)
  /-- ADDI_IMM18 (R116). -/
  | addiImm18 (t : Nat) (a b : Reg) (imm : Word)
  /-- SUBI (R116). -/
  | subi (t : Nat) (a b : Reg) (imm : Word)
  /-- ANDI (R116). -/
  | andi (t : Nat) (a b : Reg) (imm : Word)
  /-- ORI (R116). -/
  | ori (t : Nat) (a b : Reg) (imm : Word)
  /-- XORI (R116). -/
  | xori (t : Nat) (a b : Reg) (imm : Word)
  /-- MOVI_IMM18 (R116). -/
  | moviImm18 (t : Nat) (a : Reg) (imm : Word)
  /-- CMPI_IMM18 (R116). -/
  | cmpiImm18 (t : Nat) (a : Reg) (imm : Word)
  /-- TSTI (R116). -/
  | tsti (t : Nat) (a : Reg) (imm : Word)
  /-- ADDSI (R116). -/
  | addsi (t : Nat) (a b : Reg) (imm : Word)
  /-- MINI (R116). -/
  | mini (t : Nat) (a b : Reg) (imm : Word)
  /-- MAXI (R116). -/
  | maxi (t : Nat) (a b : Reg) (imm : Word)
  /-- BFX (R123). -/
  | bfx (t : Nat) (a b : Reg) (pos len : BitVec 6)
  /-- BFXS (R123). -/
  | bfxs (t : Nat) (a b : Reg) (pos len : BitVec 6)
  /-- BFI (R123). -/
  | bfi (t : Nat) (a b : Reg) (pos len : BitVec 6)
  /-- BFC (R123). -/
  | bfc (t : Nat) (a : Reg) (pos len : BitVec 6)
  /-- BFS (R123). -/
  | bfs (t : Nat) (a : Reg) (pos len : BitVec 6)
  /-- JCC (R116). -/
  | jcc (t : Nat) (cc : BitVec 4) (target : Word)
  /-- CALLA (R116). -/
  | calla (t : Nat) (target : Word)
  /-- SOLVE (R94). -/
  | solve (t : Nat) (block : Word)
  /-- SEND (R122). -/
  | send (t : Nat) (b : Reg) (addr : Word)
  /-- POST (R280). -/
  | post (t : Nat) (b : Reg) (addr : Word)
  /-- LDA (R116). -/
  | lda (t : Nat) (a : Reg) (addr : Word)
  /-- STA (R116). -/
  | sta (t : Nat) (a : Reg) (addr : Word)
  /-- LDDA (R116). -/
  | ldda (t : Nat) (a : Reg) (addr : Word)
  /-- STDA (R116). -/
  | stda (t : Nat) (a : Reg) (addr : Word)
  /-- RESERVED_OPCODE_TRAP (R110). -/
  | reservedOpcodeTrap (t : Nat) (w w2 : Word)
  /-- ACTIVATE (R174). -/
  | activate (q : Req)
  /-- CANCEL (R180). -/
  | cancel (q : Req)
  /-- LOAD (R168). -/
  | load (q : Req)
  /-- FORCE_SET (R181). -/
  | forceSet (q : Req)
  /-- FORCE_CLEAR (R198). -/
  | forceClear (q : Req)
  /-- FORCE_CLEAR_ALL (R191). -/
  | forceClearAll (q : Req)
  /-- FORCE_LIST (R182). -/
  | forceList (q : Req)
  /-- VIEW (R184). -/
  | view (q : Req)
  /-- STEP (R196). -/
  | step (q : Req)
  /-- RUN_TILE (R196). -/
  | runTile (q : Req)
  /-- ABANDON (R196). -/
  | abandon (q : Req)
  /-- STEP_TICK (R196). -/
  | stepTick (q : Req)
  /-- PACKAGE_STAGING (R172). -/
  | packageStaging (p : Package) (words : Nat)
  /-- STAGING_RESUME (R172). -/
  | stagingResume
  /-- PACKAGE_RELAY (R175). -/
  | packageRelay (p : Package) (ok : Bool)
  /-- PORT_LINK_UP (R200). -/
  | portLinkUp (link : Nat) (full100 : Bool)
  /-- RELAYED_COPY_EMISSION (R210). -/
  | relayedCopyEmission (link : Nat)
  /-- PORT_TURN (R211). -/
  | portTurn (link : Nat) (x : PortCopy)
  /-- I_FORM_RECEIPT (R212). -/
  | iFormReceipt (link : Nat) (f : IForm)
  /-- ACYCLIC_REQUEST (R229). -/
  | acyclicRequest (x : AcyclicTurn)
  /-- ACYCLIC_REPLY (R228): the frame, and whether its FCS is good. -/
  | acyclicReply (link : Nat) (fcsOk : Bool) (f : AcyclicFrame)
  /-- ACYCLIC_TIMEOUT (R229). -/
  | acyclicTimeout (link : Nat)
  /-- STATION_SERVICE (R230). -/
  | stationService (q : Req)
  /-- SUBST_SET (R230). -/
  | substSet (q : Req)
  /-- STATION_STATUS (R230). -/
  | stationStatus (q : Req)
  /-- LINTEL_POLL (R233). -/
  | lintelPoll (link : Nat)
  /-- LINTEL_REPLY (R233). -/
  | lintelReply (link : Nat) (modules : List (Nat × List Word))
  /-- LINTEL_REPLY_TIMEOUT (R233). -/
  | lintelReplyTimeout (link : Nat)
  /-- ALIVE_IN_CHANGE (R236). -/
  | aliveInChange (high : Bool)
  /-- PAIRING (R237). -/
  | pairing (p : PairingFacts)
  /-- ELECTION_TIMEOUT (R238). -/
  | electionTimeout (i : BoundaryInputs)
  /-- SYNCHRONISATION_PASS (R239). -/
  | synchronisationPass (items : List SyncItem) (dirtyLeft : Nat)
  /-- SYNCHRONISATION_COMPLETE (R239). -/
  | synchronisationComplete (ms : Nat) (meterSetup : List Word)
  /-- MIRROR_PAGE_COPY (R426). -/
  | mirrorPageCopy (page : Nat) (ws : List Word)
  /-- HEARTBEAT_SEND (R242). -/
  | heartbeatSend (phase : Nat)
  /-- HEARTBEAT_RECEIPT (R242). -/
  | heartbeatReceipt (linkB : Bool) (h : Heartbeat)
  /-- HEARTBEAT_SILENCE (R244). -/
  | heartbeatSilence
  /-- LEASE_EXPIRY (R244). -/
  | leaseExpiry
  /-- PARTNER_LOST (R245). -/
  | partnerLost
  /-- RELAY_RECEIPT (R210). -/
  | relayReceipt (r : Relay)
  /-- LEDGER_ENTRY_RECEIPT (R247). -/
  | ledgerEntryReceipt (e : LedgerEntry)
  /-- LEDGER_COMPLETE (R247). -/
  | ledgerComplete (c : LedgerClose) (lag : Nat)
  /-- LEDGER_ACK_RECEIPT (R250). -/
  | ledgerAckReceipt (good : Bool) (tick lag : Nat)
  /-- LEDGER_REQUEST (R249). -/
  | ledgerRequest
  /-- DISMISSAL_RECEIPT (R250). -/
  | dismissalReceipt (tick : Nat)
  /-- RELEASE_NOTICE_RECEIPT (R251). -/
  | releaseNoticeReceipt (b : Nat)
  /-- TAKEOVER_BOUNDARY (R256). -/
  | takeoverBoundary (tx : Nat) (i : BoundaryInputs)
  /-- HEALTH_REPORT (R260). -/
  | healthReport (f : HealthFacts)
  /-- HEALTH_REPORT_RECEIPT (R260). -/
  | healthReportReceipt (words : List Word)
  /-- HEALTH_GET (R264). -/
  | healthGet (q : Req)
  /-- RING_ENABLE (R274). -/
  | ringEnable (m r : Nat)
  /-- RING_DISABLE (R274). -/
  | ringDisable (m r : Nat) (tags : List Word)
  /-- RING_RESET (R279). -/
  | ringReset (m r : Nat) (tags : List Word)
  /-- RING_RESET_END (R279). -/
  | ringResetEnd (r : Nat)
  /-- COMMAND_DOORBELL (R278). -/
  | commandDoorbell (m r : Nat) (v : Word)
  /-- COMPLETION_DOORBELL (R278). -/
  | completionDoorbell (m r : Nat) (v : Word)
  /-- RECEIVE_DOORBELL (R334). -/
  | receiveDoorbell (m : Nat) (k : RxRing) (v : Word)
  /-- DESCRIPTOR_FETCH (R268). -/
  | descriptorFetch (r : Nat) (d : Desc)
  /-- RCLM_READ (R274). -/
  | rclmRead (m r : Nat)
  /-- MAILBOX_SEND (R284). -/
  | mailboxSend (m c : Nat) (y : Bool)
  /-- MAILBOX_ACK (R284). -/
  | mailboxAck (m c : Nat) (y : Bool)
  /-- MAILBOX_WITHDRAW (R286). -/
  | mailboxWithdraw (m c : Nat) (x : Withdrawal)
  /-- WITHDRAW_RESULT (R286). -/
  | withdrawResult (c : Nat) (y : Bool)
  /-- WITHDRAW_RESULT_READ (R272). -/
  | withdrawResultRead (m c : Nat) (y : Bool)
  /-- MAILBOX_RCLM_READ (R288). -/
  | mailboxRclmRead (m c : Nat) (y : Bool)
  /-- MB_BIND_SET (R295). -/
  | mbBindSet (q : Req)
  /-- LOCK_READ (R290). -/
  | lockRead (k : Nat) (readers : List Nat)
  /-- LOCK_WRITE (R290). -/
  | lockWrite (m k : Nat)
  /-- TK_PER0_WRITE (R45). -/
  | tkPer0Write (m : Nat) (session : Option Nat) (v : Word)
  /-- TK_PER1_WRITE (R45). -/
  | tkPer1Write (m : Nat) (session : Option Nat) (v : Word)
  /-- TK_NUM0_READ (R506). -/
  | tkNum0Read (m : Nat)
  /-- BD_MIG0_READ (R506). -/
  | bdMig0Read (m : Nat)
  /-- OC_PRG0_READ (R506). -/
  | ocPrg0Read (m : Nat)
  /-- AR_EPOCH0_READ (R506). -/
  | arEpoch0Read (m : Nat)
  /-- SF_CHK0_READ (R506). -/
  | sfChk0Read (m : Nat)
  /-- SF_CHKS0_READ (R506). -/
  | sfChks0Read (m : Nat)
  /-- WM_PT0_READ (R506). -/
  | wmPt0Read (m : Nat)
  /-- RC_SEQ0_READ (R506). -/
  | rcSeq0Read (m : Nat)
  /-- RC_OVW0_READ (R506). -/
  | rcOvw0Read (m : Nat)
  /-- UP_AT0_READ (R506). -/
  | upAt0Read (m : Nat)
  /-- REGISTER_WRITE (R505): a master's write, and what else reaches the set-up space in its cycle (R17, R506). -/
  | registerWrite (m : Nat) (session : Option Nat) (w : SlotWrite) (cycle : BusCycle)
  /-- TOPOLOGY_CHANGE (R306). -/
  | topologyChange (port : Nat) (up : Bool)
  /-- TOPOLOGY_CONFIRMATION (R306). -/
  | topologyConfirmation (t : Topology)
  /-- TELEGRAM_RECEIPT (R302). -/
  | telegramReceipt (sub : Nat) (data : List Nat) (sdtOk : Bool)
  /-- SUBSCRIPTION_TIMEOUT (R301). -/
  | subscriptionTimeout (sub : Nat)
  /-- TELEGRAM_PUBLICATION (R303). -/
  | telegramPublication (n : Nat)
  /-- MVB_MASTER_FRAME (R303). -/
  | mvbMasterFrame (port : Nat)
  /-- MESSAGE_DATA_RECEIPT (R305): the octets received. -/
  | messageDataReceipt (octets : List Nat)
  /-- TN_MD_SEND (R305). -/
  | tnMdSend (q : Req)
  /-- MD_REPLY_TIMEOUT (R305). -/
  | mdReplyTimeout (tag : Word)
  /-- TN_TOPO_GET (R305). -/
  | tnTopoGet (q : Req)
  /-- TN_TABLE_SET (R300). -/
  | tnTableSet (q : Req)
  /-- PTP_SYNC (R311). -/
  | ptpSync (off : Int)
  /-- TIME_SOURCE_LOSS (R312). -/
  | timeSourceLoss
  /-- PPS_IN (R311). -/
  | ppsIn (off : Int)
  /-- PPS_OUT (R314). -/
  | ppsOut (high : Bool)
  /-- CAN_TX (R320). -/
  | canTx (q : Req)
  /-- CAN_ABORT (R322). -/
  | canAbort (q : Req)
  /-- CAN_RECOVER (R327). -/
  | canRecover (q : Req)
  /-- CAN_FRAME_SENT (R322). -/
  | canFrameSent (c : Nat) (ok : Bool) (off : Nat)
  /-- CAN_FRAME_RECEIVED (R324). -/
  | canFrameReceived (c : Nat) (f : CanFrame) (off : Nat)
  /-- CAN_BUS_ERROR (R318). -/
  | canBusError (c : Nat) (tx : Bool) (step : Nat) (off : Nat)
  /-- BUS_OFF (R327). -/
  | busOff (c off : Nat)
  /-- BUS_OFF_RECOVERED (R327). -/
  | busOffRecovered (c off : Nat)
  /-- SER_TX (R332). -/
  | serTx (q : Req)
  /-- SERIAL_TX_DONE (R332). -/
  | serialTxDone (s sent off : Nat)
  /-- SER_ABORT (R332). -/
  | serAbort (q : Req)
  /-- SERIAL_FRAME_RECEIVED (R331). -/
  | serialFrameReceived (s : Nat) (f : SerialFrame) (off : Nat)
  /-- CHANNEL_DISABLE (R334). -/
  | channelDisable (m : Nat) (session : Option Nat) (serial : Bool) (c : Nat)
  /-- ISLAND_CYCLE (R338). -/
  | islandCycle (i : IslandInputs)
  /-- SAFETY_INPUT_FILTER (R339). -/
  | safetyInputFilter (ch : Nat) (high : Bool)
  /-- DARK_TEST (R342). -/
  | darkTest (o : Nat) (ok : Bool)
  /-- ENABLES_MESSAGE (R352). -/
  | enablesMessage
  /-- ENABLE_TIMEOUT (R348). -/
  | enableTimeout
  /-- ISLAND_RESTART (R336). -/
  | islandRestart
  /-- SAFE_PARAM_SET (R358). -/
  | safeParamSet (q : Req)
  /-- SAFE_CONFIRM (R359). -/
  | safeConfirm (q : Req)
  /-- SAFE_ACK (R343). -/
  | safeAck (q : Req)
  /-- SAFE_PARAM_GET (R362). -/
  | safeParamGet (q : Req)
  /-- INPUT_DEBOUNCE (R367, R368): a current in 10 µA that has held for FILT, none for reversed polarity. -/
  | inputDebounce (ch : Nat) (current : Option Nat)
  /-- FIELD_OUTPUT_FAULT (R370). -/
  | fieldOutputFault (ch : Nat) (code : Nat) (present : Bool)
  /-- LOGIC_SILENCE_TIMEOUT (R371). -/
  | logicSilenceTimeout
  /-- FIELD_STATUS (R376). -/
  | fieldStatus (q : Req) (measured : List Nat)
  /-- METERING_SAMPLE (R383). -/
  | meteringSample (x : MeterSample)
  /-- MODULATOR_LINK_LOSS (R382). -/
  | modulatorLinkLoss (link : Nat)
  /-- MODULATOR_LINK_REGAIN (R382). -/
  | modulatorLinkRegain (link : Nat)
  /-- MT_READ (R397). -/
  | mtRead (q : Req)
  /-- MT_LOG_READ (R397). -/
  | mtLogRead (q : Req)
  /-- MT_SET (R397). -/
  | mtSet (q : Req)
  /-- RECORD_WRITE (R411). -/
  | recordWrite
  /-- SQUALL_CLOSE (R412). -/
  | squallClose (seq : Nat)
  /-- RC_READ (R431). -/
  | rcRead (q : Req)
  /-- RC_LOG (R431). -/
  | rcLog (q : Req)
  /-- RC_EXPORT (R460). -/
  | rcExport (q : Req)
  /-- PS_READ (R431). -/
  | psRead (q : Req)
  /-- PS_WRITE (R416). -/
  | psWrite (q : Req)
  /-- PAGE_WRITE_COMPLETE (R414). -/
  | pageWriteComplete
  /-- PB_READ (R421). -/
  | pbRead (q : Req)
  /-- PB_WRITE (R422). -/
  | pbWrite (q : Req)
  /-- SC_DEFINE (R423). -/
  | scDefine (q : Req)
  /-- SC_INC (R424). -/
  | scInc (q : Req)
  /-- SC_READ (R431). -/
  | scRead (q : Req)
  /-- SCRUB_READ (R418). -/
  | scrubRead (weak uncorrectable : Bool)
  /-- SCRUB_PASS_START (R418). -/
  | scrubPassStart
  /-- APPLICATION_SLOT_APPEND (R428). -/
  | applicationSlotAppend (fills : Bool)
  /-- FROST_READ (R440). -/
  | frostRead (m : Nat) (el : Elapsed)
  /-- THAW_READ (R440). -/
  | thawRead (m : Nat)
  /-- FROST_TIMEOUT (R440). -/
  | frostTimeout (m : Nat)
  /-- HALT_SET (R441). -/
  | haltSet (m : Nat) (session : Option Nat)
  /-- CLOCK_STAGE_WRITE (R441). -/
  | clockStageWrite (m idx : Nat) (v : Word)
  /-- CLOCK_COMMIT (R442). -/
  | clockCommit (m : Nat) (el : Elapsed)
  /-- OSCILLATOR_STOP (R443). -/
  | oscillatorStop
  /-- CLOCK_CORRECTION (R444). -/
  | clockCorrection (err : Int)
  /-- CALIBRATION_UPDATE (R444). -/
  | calibrationUpdate (rate : Int)
  /-- ALARM_ARM (R445). -/
  | alarmArm (m k : Nat) (session : Option Nat)
  /-- ALARM_FIRE (R445). -/
  | alarmFire (k : Nat)
  /-- WATCHDOG_SERVICE (R450). -/
  | watchdogService (m : Nat) (v : Word) (el : Elapsed)
  /-- WATCHDOG_LATE (R449). -/
  | watchdogLate
  /-- WATCHDOG_CLOCK_FAULT (R448). -/
  | watchdogClockFault
  /-- MONITOR_CLOCK_LOSS (R448). -/
  | monitorClockLoss
  /-- UPD_BEGIN (R470). -/
  | updBegin (q : Req) (m : Manifest)
  /-- UPD_BLOCK (R471). -/
  | updBlock (q : Req) (digestOk : Bool)
  /-- UPD_SCHEDULE (R473). -/
  | updSchedule (q : Req)
  /-- UPD_CANCEL (R473). -/
  | updCancel (q : Req)
  /-- ACTIVATION_WINDOW_END (R474). -/
  | activationWindowEnd
  /-- CRED_BIND (R466). -/
  | credBind (r : Nat) (q : Req) (c : Certificate)
  /-- CRED_PROVE (R466). -/
  | credProve (r : Nat) (q : Req) (ok : Bool)
  /-- CRED_UNBIND (R466). -/
  | credUnbind (r : Nat) (q : Req)
  /-- CRED_REVOKE (R465). -/
  | credRevoke (q : Req)
  /-- CREDENTIAL_EXPIRY (R466). -/
  | credentialExpiry (r : Nat)
  /-- ANCHOR_SET (R465). -/
  | anchorSet (q : Req) (fp : Option Nat)
  /-- ID_CERT_GET (R458). -/
  | idCertGet (q : Req)
  /-- DBG_OPEN (R466). -/
  | dbgOpen (q : Req)
  /-- SET_RETAINED_GET (R478). -/
  | setRetainedGet (q : Req)
  /-- SET_RETAINED_CLEAR (R480). -/
  | setRetainedClear (q : Req)
  /-- SERVICE_SESSION_OPEN (R468). -/
  | serviceSessionOpen (c : Certificate)
  /-- SERVICE_SESSION_CLOSE (R469). -/
  | serviceSessionClose (id : Nat)
  /-- SESSION_IDLE_TIMEOUT (R468). -/
  | sessionIdleTimeout (id : Nat)
  /-- BANK_RESERVE_REACHED (R487). -/
  | bankReserveReached (volts : Nat)
  /-- HOST_LINK_UP (R267). -/
  | hostLinkUp (width : Nat) (gen2 : Bool)
  /-- ARCH_LINK_DOWN (R260). -/
  | archLinkDown (linkB : Bool)
  /-- RELEASE_ACK_RECEIPT (R251). -/
  | releaseAckReceipt
  /-- ARMED_TICK_RECEIPT (R175). -/
  | armedTickReceipt (tick : Option Nat)
  /-- FORWARDED_WRITE_RECEIPT (R426). -/
  | forwardedWriteReceipt (w : Forwarded)
  /-- FORWARDED_WRITE_CONFIRMATION (R426). -/
  | forwardedWriteConfirmation
  /-- BACKUP_INPUT_CHANGE (R434). -/
  | backupInputChange (inRange : Bool)
  /-- CLOCK_RANGE_END (R437). -/
  | clockRangeEnd
  /-- MRP_RING_STATE_CHANGE (R316). -/
  | mrpRingStateChange (closed : Bool)
  /-- MVB_LINE_SWITCHOVER (R316). -/
  | mvbLineSwitchover (lineB : Bool)
  /-- MESSAGE_DATA_REPLY (R305): the octets of the reply. -/
  | messageDataReply (tag : Word) (octets : List Nat)
deriving DecidableEq, Repr

end Sys2Proof
end

