-- ==== Sys2Proof/Machine/State.lean ====
section
/-!
DEFINITION. The state of the Keystone as plain data: everything the spec gives the machine, the queue
of waiting commands, and the state right after reset.
-/

namespace Sys2Proof.Machine

/-- No master identity stands beyond 63; 63 names no master (R270). -/
abbrev noOwner : Nat := 63

/-! ## Modes (R22) -/

/-- The twelve modes (R22). -/
inductive Mode where
  | off | backup | start | stop | run | hold | track | takeover | safe | seal | update | service
deriving DecidableEq, Repr

/-! ## The tile (R97, R101–R103, R142, R146) -/

/-- The five flags of FL (R103). -/
structure Flags where
  z : Bool := false
  n : Bool := false
  c : Bool := false
  v : Bool := false
  s : Bool := false
deriving DecidableEq, Repr

/-- Where a REP stands (R126): none, decoded with its target next, or its target repeating. -/
inductive RepState where
  | none | armed | running
deriving DecidableEq, Repr

/-- The position reached in a block (R97): the next stage entry, the next course with the number of its first slot word, or
the next write-back. -/
inductive BlockPos where
  | stage (i : Nat)
  | course (i slot : Nat)
  | writeBack (i : Nat)
deriving DecidableEq, Repr

/-- The solver state of R97: bed, RLOs, branch stacks, WA, SAT and the position in the block. -/
structure Solver where
  bed : Tbl Word := []
  rlo0 : Bool := false
  rlo1 : Bool := false
  stack0 : List Bool := []
  stack1 : List Bool := []
  wa : Word := 0
  sat : Bool := false
  /-- The position reached in the block of a SOLVE in progress; none when none is (R97). -/
  next : Option BlockPos := none
deriving DecidableEq, Repr

/-- The architectural state of a tile (R101), its solver state (R97) and its budget counter (R59, R62). -/
structure Cpu where
  regs : Tbl Word := []
  pc : Addr := 0
  fl : Flags := {}
  ct : Word := 0
  rc : Word := 0
  trapact : Bool := false
  /-- The number of the trap being handled, which a double trap's event names (R134). -/
  trapNum : Nat := 0
  /-- The code address that an illegal-course trap carries, for which R132's sixteen words have no place (R98). -/
  trapAddr : Addr := 0
  rep : RepState := .none
  /-- The last write to CT by a repeated target, pending until the last repetition (R128). -/
  ctPending : Option Word := none
  solver : Solver := {}
  /-- The payload words retired so far by a SEND or END in progress, part way through its payload (R147, R149). -/
  request : Option Nat := none
  budget : Nat := 0
deriving DecidableEq, Repr

/-- An effect withheld until its window closes with a match (R149). -/
inductive Effect where
  /-- A far store: the AREA, the first INDEX after clamping, and the data words. -/
  | farStore (area index : Nat) (words : List Word)
  /-- A mailbox send: the channel and the message block. -/
  | send (channel : Nat) (words : List Word)
  /-- A descriptor post: the ring and the eight words. -/
  | post (ring : Nat) (words : List Word)
  /-- END: the commit of the held writes. -/
  | finish
  /-- The double trap of R134, with both trap numbers: the activation ends as by an overrun. -/
  | doubleTrap (first second : Nat)
deriving DecidableEq, Repr

/-- What stops a tile at a retire boundary (R162, R193): the last step of STEP, a BRK, or a debug breakpoint. -/
inductive StopKind where
  | step | brk | debug
deriving DecidableEq, Repr

/-- The activation a tile is running (R51): slot, task, kind and the entry of its schedule table. -/
structure Activation where
  slot : Nat
  entry : SlotEntry
  /-- A send, a post or a far store of this activation has already been recorded (R120, R280, R285). -/
  sendRecorded : Bool := false
  postRecorded : Bool := false
  farRecorded : Bool := false
  /-- Open since a breakpoint stopped it (R193); it stays open while it is stepped. -/
  opened : Bool := false
  /-- Stopped: open and held (R193). -/
  stopped : Bool := false
  /-- The tile stops at the close that is due (R162). -/
  stopDue : Option StopKind := none
  /-- Stopped by a BRK, which executes as NOP when the tile resumes (R193). -/
  resumeBrk : Bool := false
  /-- Retire steps left under STEP; none while running freely (R196). -/
  stepsLeft : Option Nat := none
deriving DecidableEq, Repr

/-- The checkpoint file (R142): the state of R101, R97 and R62, with the store and cycle counts of the open window. -/
structure Checkpoint where
  cpu : Cpu := {}
  sblo : Addr := 0
  sbhi : Addr := 0
  stores : Nat := 0
  cycles : Nat := 0
  /-- The model's own: the instruction at the checkpoint is the BRK the tile resumes from (R193). -/
  resumeBrk : Bool := false
deriving DecidableEq, Repr

/-- The running side of one tile: the state of its main core and of its checker, checkpoint file, store buffer banks, open
window, withheld effect, held writes and current activation. -/
structure Tile where
  /-- The main core, whose results reach the tile (R141). -/
  cpu : Cpu := {}
  /-- The checker, which executes the same stream (R141). -/
  checker : Cpu := {}
  /-- The checkpoint file (R142). -/
  checkpoint : Checkpoint := {}
  /-- The filling bank, youngest store first (R146). -/
  filling : List (Addr × Word) := []
  /-- The draining bank, youngest store first (R146). -/
  draining : List (Addr × Word) := []
  /-- The signatures of the open window in the main core and in the checker (R144). -/
  signature : Dword := 0
  checkSig : Dword := 0
  /-- Cycles since the window opened (R147). -/
  windowCycles : Nat := 0
  /-- A close is due at the retire boundary reached (R147). -/
  closeDue : Bool := false
  /-- The close waits for the other bank to drain (R148). -/
  closeWaits : Bool := false
  effect : Option Effect := none
  /-- Held output and exchange writes (R67); key area × 2^18 + index. -/
  held : Tbl (Option Word) := []
  /-- The held writes as they stood at the checkpoint (a SOLVE's write-backs join them unverified, R95). -/
  checkpointHeld : Tbl (Option Word) := []
  activation : Option Activation := none
  /-- Slots of the current tick already dispatched on this tile (R51). -/
  slotsDone : List Nat := []
deriving DecidableEq, Repr

/-! ## Energy measurement (R379–R397) -/

/-- A sample received and not yet counted (R383, R387): its channel values after R384, p and q scaled by MT_VFS × MT_IFS,
its stamp, whether a sample of its span is missing, and whether it came in the last 2 µs before T_in. -/
structure MeterIn where
  values : List Int
  p : Int
  q : Int
  sec : Nat
  sub : Nat
  /-- Its stamp in tick time, in ns. -/
  stamp : Int
  bad : Bool
  late : Bool
deriving DecidableEq, Repr

/-- A pulse output (R393): ticks since its pulse began, and its remainder × K in 2⁻³⁶ of the accumulator's unit. -/
structure Pulse where
  ticks : Option Nat := none
  rem : Nat := 0
  k : Nat := 1000
deriving DecidableEq, Repr

/-- The metering half of the working state (R386, R390–R393). -/
structure Meter where
  /-- The eight accumulators with their fractions, in 2⁻³⁶ of their unit, modulo 2¹⁰⁸. -/
  acc : Tbl Nat := []
  /-- p and q of the samples held in the window, newest first, at most 800. -/
  window : List (Int × Int) := []
  pulses : Tbl Pulse := []
  /-- B of the latest tick, and that tick's number (R387). -/
  boundary : Nat := 0
  tick : Nat := 0
  counting : Bool := false
  /-- Sums of p and q over the window at the last counted sample, and the square root of their squares. -/
  lastP : Int := 0
  lastQ : Int := 0
  lastS : Nat := 0
  /-- Stamp of the last counted sample. -/
  sec : Nat := 0
  sub : Nat := 0
  /-- The open interval (R390): its start, its end boundary, FLAGS and COUNT. -/
  open_ : Bool := false
  startSec : Nat := 0
  startSub : Nat := 0
  endSec : Nat := 0
  flags : Nat := 0
  count : Nat := 0
  /-- A gap under way (R392): KIND, START, and UNSEALED. -/
  gap : Option (Nat × Nat × Nat × Bool) := none
  /-- The log (R391): the next SEQ and the records; key SEQ mod 8,192. -/
  seq : Nat := 0
  log : Tbl (Option (List Word)) := []
  /-- SEQ of the latest interval record (R389). -/
  lastInterval : Nat := 0
deriving DecidableEq, Repr

/-- The metering interface beside it (R380, R382, R383, R396). -/
structure Modulators where
  linkA : Bool := false
  linkB : Bool := false
  align : Bool := false
  ferr : Bool := false
  ovr : Nat := 0
  /-- Index of the next sample, modulo 2³⁵. -/
  index : Nat := 0
  pending : List MeterIn := []
  /-- Samples still to pass over after the first T0 (R387). -/
  skip : Nat := 0
  /-- The last 512 frames of both links, newest first: bit c the modulator bit of channel c, bit 7 a bad frame (R380). -/
  frames : List Nat := []
  /-- The sinc filter's sums of the seven channels, newest first, and their values after R384: the last 1,024 samples. -/
  sums : List (List Nat) := []
  hist : List (List Int) := []
  /-- The stamp of the last sample in tick time, in ns (R383, R388). -/
  stamp : Int := 0
  /-- UTC of the last image, and what the next image's first word shows (R389, R390). -/
  utc : Option (Nat × Nat) := none
  gapShown : Bool := false
  intvShown : Bool := false
deriving DecidableEq, Repr

/-! ## The working state (R72) -/

/-- A tile's code and data memory of 131,072 words each, with its stack bounds (R6, R101). -/
structure TileMem where
  code : Tbl Word := []
  data : Tbl Word := []
  sblo : Addr := 0
  sbhi : Addr := 0
  run : List SlotEntry := []
  start : List SlotEntry := []
deriving DecidableEq, Repr

/-- Mortar memory (R64): the images and the exchange area. `out` and `exch` hold the values committed
by the end of the last tick; `outNew` and `exchNew` the commits of the current tick (R67). -/
structure Mortar where
  input : Tbl Word := []
  /-- The input image of the tick before, after forces, which triggers compare with (R52). -/
  inputPrev : Tbl Word := []
  /-- The input image as sampled, before forces: VIEW's field view (R184); and that of the tick before, against which the
  ledger's entries are chosen (R246). -/
  inputField : Tbl Word := []
  fieldPrev : Tbl Word := []
  out : Tbl Word := []
  exch : Tbl Word := []
  outNew : Tbl (Option Word) := []
  exchNew : Tbl (Option Word) := []
  /-- The output image as last emitted, forces applied (R184). -/
  emitted : Tbl Word := []
deriving DecidableEq, Repr

/-- A force table entry (R182). -/
structure Force where
  word : Bool
  output : Bool
  index : Nat
  bit : Nat
  value : Word
  sym : Nat
  meaning : Word
  role : Nat
  fp : Nat
deriving DecidableEq, Repr

/-- The tick set-up values (R45). -/
structure TickSetup where
  period : Nat := 1000
  latch : Nat := 20
  inwin : Nat := 60
  lock : Bool := false
deriving DecidableEq, Repr

/-- The working state that survives every power cycle (R72). -/
structure Work where
  mem : Tbl TileMem := []
  mortar : Mortar := {}
  /-- The 54-bit tick count: era × 2^36 + tick number (R44). -/
  count : Nat := 0
  program : Program := {}
  forces : List Force := []
  /-- The committed tick set-up values (R45). -/
  setup : TickSetup := {}
  /-- Consecutive overruns by task number (R60). -/
  overruns : Tbl Nat := []
  /-- The error summary raised in the current tick, and the one of the last tick (R56). -/
  errNow : Word := 0
  errLast : Word := 0
  /-- Triggers that the last activation added, by task, not evaluated in its tick (R179). -/
  newTriggers : List (Nat × Trigger) := []
  /-- Write sets a standby in Track holds until the ledger completes: (tile, task, writes) (R253). -/
  pendingSets : List (Nat × Nat × Tbl (Option Word)) := []
  /-- The inauguration counter (R310). -/
  inaugCount : Nat := 0
  /-- Accumulators, window, pulses, intervals and their log (R386). -/
  meter : Meter := {}
deriving DecidableEq, Repr

/-- A consistency point (R74, R403, R404): its serial, tick count, the clock's UTC at P (R35), lines and the frozen state. -/
structure Point where
  serial : Nat
  count : Nat
  utcSec : Nat
  utcSub : Nat
  lines : Nat
  /-- Lines not yet written to working memory. -/
  left : Nat
  /-- The mode of its tick (R34). -/
  mode : Mode
  /-- The first metering sample not counted (R408). -/
  sample : Nat
  state : Work
deriving DecidableEq, Repr

/-! ## Rings, mailboxes and locks (R273–R294) -/

/-- A completion (R276), with the words returned into the buffer. -/
structure Completion where
  slot : Nat
  tag : Word
  status : Nat
  code : Nat
  detail : Nat
  len : Nat
  data : List Word
deriving DecidableEq, Repr

/-- Whom a completion is owed to: the ring of the engine and the poster. -/
structure Ticket where
  ring : Nat
  origin : Origin
  tag : Word
deriving DecidableEq, Repr

/-- One ring pair (R274–R281) with the engine's arrival queue. -/
structure Ring where
  en : Bool := false
  busy : Bool := false
  rclm : Bool := false
  log2s : Nat := 3
  owner : Nat := noOwner
  /-- The identity named by the reclaimed mark (R166). -/
  prev : Nat := noOwner
  cb : Nat := 0
  qb : Nat := 0
  cpi : Nat := 0
  cci : Nat := 0
  qpi : Nat := 0
  qci : Nat := 0
  tdone : Nat := 0
  tfail : Nat := 0
  orph : Nat := 0
  /-- Descriptors in order of arrival: fetched from the ring or posted by tiles (R280). -/
  queue : List Req := []
  /-- Operations begun and not yet completed. -/
  flight : List Ticket := []
  /-- Descriptors the reset under way has aborted (R279). -/
  aborts : Nat := 0
  /-- The owner disables the ring: it becomes free when the reset ends (R274). -/
  disabling : Bool := false
  /-- Completions written and not yet consumed, oldest first. -/
  completions : List Completion := []
deriving DecidableEq, Repr

/-- One direction of a mailbox channel (R284–R289). -/
structure Direction where
  go : Bool := false
  taken : Bool := false
  /-- The last message sent was taken; TAKEN itself falls when the sender clears it (R286). -/
  lastTaken : Bool := false
  crossed : Bool := false
  orphan : Bool := false
  rclm : Bool := false
  /-- The acquiring SEND has been made: the sender's next read returns RCLM (R288). -/
  rclmShow : Bool := false
  seq : Nat := 0
  msg : Tbl Word := []
  /-- Messages taken into the image block of a tile receiver, modulo 512 (R283). -/
  takenCount : Nat := 0
  /-- Withdrawal result: READY, STALE and OUTCOME (R272, R286), and who asked for it. -/
  wresReady : Bool := false
  wresStale : Bool := false
  wresOutcome : Nat := 0
  wresAsker : Nat := noOwner
  wresPending : Bool := false
deriving DecidableEq, Repr

/-- A channel binding (R282, R289). -/
structure Binding where
  x : Nat := noOwner
  y : Nat := noOwner
  len16 : Bool := false
  en : Bool := false
  ibx : Nat := 0
  iby : Nat := 0
deriving DecidableEq, Repr

/-- A mailbox channel: the binding in effect, the settings copy, and both directions. -/
structure Channel where
  bind : Binding := {}
  settings : Binding := {}
  /-- Direction X to Y. -/
  dirX : Direction := {}
  /-- Direction Y to X. -/
  dirY : Direction := {}
deriving DecidableEq, Repr

/-- A lock register (R290–R294). -/
structure Lock where
  owner : Nat := noOwner
  rclm : Bool := false
  prev : Nat := 0
  /-- Tile claims queued in order (R294), as tile numbers. -/
  claims : List Nat := []
deriving DecidableEq, Repr

/-! ## Bonds (R140–R160) -/

/-- What a bond position does (R160, w1 STATE). -/
inductive BondState where
  | running (slot : Nat)
  | free
  | testing
  | retired
deriving DecidableEq, Repr

/-- One bond position of a tile die. -/
structure Bond where
  state : BondState := .free
  cause : Nat := 0
  /-- Operating hours of the transients that still count (R158). -/
  transients : List Nat := []
  /-- The test under way followed a mismatch or a failed entry check (R157). -/
  suspect : Bool := false
deriving DecidableEq, Repr

/-- A tile die (R140, R160). -/
structure Die where
  bonds : Tbl Bond := []
  reserve : Option Nat := none
  migrations : Nat := 0
  correctable : Nat := 0
  /-- Operating time: whole hours, and the rest in counts of 2⁻¹⁵ s (R158). -/
  hours : Nat := 0
  counts : Nat := 0
deriving DecidableEq, Repr

/-! ## Credentials and sessions (R463–R469) -/

/-- A role and a short fingerprint: 0 none or the device, 1 operator, 2 installer, 3 maker (R409, R464). -/
structure Cred where
  role : Nat := 0
  fp : Nat := 0
deriving DecidableEq, Repr

/-- A service session (R468). -/
structure Session where
  id : Nat
  cert : Certificate
deriving DecidableEq, Repr

/-- Anchors, revocation list and ring bindings (R463–R466). -/
structure Identity where
  /-- Fingerprints of the installation anchors; slot 0 is factory data. -/
  anchors : Tbl (Option Nat) := [(0, some Config.factoryAnchor)]
  revoked : List Nat := []
  /-- Credentials that have been sent a challenge and those bound, by ring. -/
  challenges : Tbl (Option Certificate) := []
  bound : Tbl (Option Certificate) := []
deriving DecidableEq, Repr

/-! ## Firmware and transfers (R461–R477) -/

/-- The transfer under way or last finished (R470, R471). -/
structure Transfer where
  manifest : Manifest
  program : Bool
  verified : Nat
deriving DecidableEq, Repr

/-- An armed activation (R473): the UTC second and the window in seconds. -/
structure ArmedUpdate where
  at_ : Nat
  window : Nat
deriving DecidableEq, Repr

/-- Firmware slots, fuses and the update ring's state (R461–R479). -/
structure Firmware where
  /-- The valid images of slots A and B. -/
  slotA : Option Manifest := some ⟨0, some 0, 0, 0, 0, false, [], 1, true⟩
  slotB : Option Manifest := none
  /-- The boot record (R476): false A, true B. -/
  active : Bool := false
  trial : Bool := false
  tries : Nat := 0
  /-- Failed starts of the other slot, and both have failed three times (R477). -/
  otherTries : Nat := 0
  failed : Bool := false
  /-- Fuse counter, and maker keys retired by fuse. -/
  svn : Nat := 0
  retired : Nat := 0
  /-- The version that ran before the trial. -/
  before : Nat := 0
  transfer : Option Transfer := none
  /-- A transfer has brought the inactive slot a complete, verified image that has not run (R473). -/
  imageIn : Bool := false
  armed : Option ArmedUpdate := none
  /-- UP_AT: the second last armed. -/
  shownAt : Nat := 0
  /-- The last UPD_BLOCK of a program package, completed when the package is staged. -/
  lastBlock : Option Ticket := none
  /-- An update request accepted, or the activation has come due. -/
  activating : Bool := false
  /-- The holder of an arch has placed the update marker for its standby (R261). -/
  marked : Bool := false
deriving DecidableEq, Repr

/-! ## Online change, forces, hold (R168–R197) -/

/-- A refusal (R58, R173): its code, the tile and slot concerned, and of code 9 the block's address and the cause (R99). -/
structure Refused where
  code : Nat := 0
  tile : Nat := 0
  slot : Nat := 0
  block : Nat := 0
  cause : Nat := 0
deriving DecidableEq, Repr

/-- The staged package (R171–R175). -/
structure Staged where
  pkg : Package
  /-- Words already written into shadow areas, and the total to write. -/
  written : Nat
  total : Nat
  /-- OC_STAT.STATE: 1 staging, 2 proving, 3 ready, 4 armed. -/
  state : Nat
  /-- The tick set-up and allocations the proof was made against (R173, code 15). -/
  proved : TickSetup
  provedAllocs : List WordRange
deriving DecidableEq, Repr

/-- A force change waiting for the boundary (R186). -/
inductive ForceChange where
  | set (f : Force)
  | clear (word output : Bool) (index bit : Nat)
  | clearAll
deriving DecidableEq, Repr

/-- Online change, force and hold state beside the working state. -/
structure Online where
  /-- A program package has been transferred and waits to be staged (R168). -/
  transferred : Bool := false
  staged : Option Staged := none
  /-- The credential that armed the activation, which makes the program current (R466). -/
  armedBy : Cred := {}
  paused : Bool := false
  /-- The last refusal, as OC_STAT shows it, and that of the last package's proof, while no other is staged (R58, R180). -/
  refusal : Refused := {}
  failed : Option Refused := none
  archReady : Bool := false
  sched : Bool := false
  atk : Nat := 0
  /-- The armed ACTIVATE awaiting its boundary. -/
  armed : Option Ticket := none
  /-- Force changes of the current tick, with the completions owed at the next T0 (R186). -/
  forceChanges : List ForceChange := []
  forceTickets : List Ticket := []
  /-- Ticks left of a STEP_TICK run, and its ticket (R196). -/
  stepTicks : Nat := 0
  stepTickTicket : Option Ticket := none
  /-- A breakpoint stop makes Hold due at the next boundary (R192). -/
  holdDue : Bool := false
  /-- STEP and RUN_TILE under way: tile and ticket. -/
  stepping : List (Nat × Ticket) := []
deriving DecidableEq, Repr

/-! ## Recorder, page store, counters (R400–R430) -/

/-- The events the spec names without giving a code. -/
inductive EventName where
  | modeTransition | startInterrupted | setupWriteIgnored | budgetOverrun | doubleTrap | writeBehindLag
  | farStoreDiscarded | uncorrectableMemory | forceSet | forceCleared | activated | stagedDiscarded
  | abandoned | programLoaded | packageRefused | activationMissed
  /-- A change made under a role (R9, R467). -/
  | changed
deriving DecidableEq, Repr

/-- The CODE of an event: the code the spec gives, or the name of an event whose code it does not give. -/
inductive EventCode where
  | given (code : Nat)
  | named (name : EventName)
deriving DecidableEq, Repr

/-- An event as a source reports it (R409): code, source level and index, role and fingerprint, data. -/
structure Event where
  code : EventCode
  level : Nat := 0
  index : Nat := 0
  role : Nat := 0
  fp : Nat := 0
  data : List Nat := []
deriving DecidableEq, Repr

/-- An event waiting to be recorded with the clock reading at the event, and repeats folded before it
was written ("records lost", R411). -/
structure Waiting where
  event : Event
  sec : Nat
  sub : Nat
  repeats : Nat
deriving DecidableEq, Repr

/-- A recorder record (R409). -/
structure Record where
  seq : Nat
  sec : Nat
  sub : Nat
  cont : Bool
  event : Event
  rep : Nat
  last : Nat
deriving DecidableEq, Repr

/-- The event recorder (R409–R412). -/
structure Recorder where
  open_ : Bool := false
  seq : Nat := 0
  ovw : Nat := 0
  /-- Records present; key SEQ mod 262,144. -/
  records : Tbl (Option Record) := []
  queue : List Waiting := []
  /-- SEQ of the open records, oldest first, at most 32 (R412). -/
  opened : List Nat := []
deriving DecidableEq, Repr

/-- What a page-store request writes (R416, R418, R422–R424). -/
inductive PageWork where
  /-- Words from a page and word offset onward: PS_WRITE, substitute values. -/
  | words (page offset : Nat) (ws : List Word)
  /-- A parameter block at an even page, with its FORMAT and data. -/
  | block (page format : Nat) (ws : List Word)
  /-- SC_INC: the counter and the delta. -/
  | increment (counter delta : Nat)
  /-- SC_DEFINE: the counter, its base page and its number of pages. -/
  | define (counter base n : Nat)
  /-- A counter cell copied at synchronisation (R426). -/
  | cell (counter value serial : Nat)
  /-- A scrub refresh of one page (R418). -/
  | refresh (page : Nat)
deriving DecidableEq, Repr

/-- A page-store write request (R416, R417). -/
structure PageJob where
  owner : Nat
  ticket : Option Ticket
  work : PageWork
  /-- Its first page has begun. -/
  begun : Bool := false
  /-- Pages still to write: (page, its 64 words, words counted in LEN). -/
  pages : List (Nat × List Word × Nat) := []
  done : Nat := 0
  /-- The owner has been revoked, the ring reset or Seal entered: no later page is written. -/
  cut : Bool := false
  /-- The completion carries the reclaimed mark of the grant (R417). -/
  rclm : Bool := false
  /-- The partner is owed a confirmation: this write was forwarded to this standby (R426). -/
  forwarded : Bool := false
deriving DecidableEq, Repr

/-- A write of the holder forwarded to its partner (R426): LEN and DETAIL of its own completion once its write is complete, and
the partner's confirmation. -/
structure ForwardedWrite where
  ticket : Ticket
  work : PageWork
  own : Option (Nat × Nat) := none
  confirmed : Bool := false
deriving DecidableEq, Repr

/-- The page store, spread counters and code store (R414–R430). -/
structure PageStore where
  /-- Words; key 64 × page + offset. -/
  words : Tbl Word := []
  /-- Page write counts (R416). -/
  writes : Tbl Nat := []
  /-- Pages left undefined by a power loss (R419). -/
  undefined : Tbl Bool := []
  jobs : List PageJob := []
  /-- The first job's current page is under write. -/
  busy : Bool := false
  grant : Nat := noOwner
  grantRclm : Bool := false
  grantPrev : Nat := noOwner
  scrub : Bool := false
  scrubPage : Nat := 0
  scrubRefreshed : Nat := 0
  scrubBad : Nat := 0
  /-- Clock seconds at the end of the last complete pass, and the pages it refreshed (R418). -/
  scrubAt : Nat := 0
  ref : Nat := 0
  /-- Application pages written while the partner was not tracked, and the last of them sent to it since (R426). -/
  unmirrored : List Nat := []
  mirrorOut : Option (Nat × List Word) := none
  /-- Twin pages already reported since Start (R421). -/
  twins : List Nat := []
  /-- Spread counter definitions: (base page, N) (R423). -/
  counters : Tbl (Option (Nat × Nat)) := []
  /-- The counter intent record: ACTIVE, counter and new serial (R424). -/
  intent : Option (Nat × Nat) := none
  /-- Reads of a page under write, waiting for it to end (R414). -/
  readers : List (Req × Ticket) := []
  /-- Writes forwarded to the partner and not yet complete on both (R426). -/
  forwards : List ForwardedWrite := []
  /-- Confirmations sent to the holder. -/
  confirmsSent : Nat := 0
  /-- CS_STAT.APP: active application slot. -/
  appSlot : Bool := false
  /-- Records appended to each application slot since it was written whole (R428). -/
  appended : Nat := 0
  appendDue : Bool := false
  /-- The program the active application slot yields (R429). -/
  image : Work := {}
  /-- The staged full package, or previous program, in the inactive slot (R428). -/
  otherImage : Option Work := none
deriving DecidableEq, Repr

/-- The seal record (R407). -/
structure SealRecord where
  serial : Nat
  mode : Mode
  utcSec : Nat
  utcSub : Nat
  sample : Nat
deriving DecidableEq, Repr

/-- Working memory's control area (R402–R408). -/
structure Persist where
  /-- Serial of the last consistency point taken. -/
  serial : Nat := 0
  /-- Points taken and not complete, oldest first (R403). -/
  outstanding : List Point := []
  /-- The last complete point (R404). -/
  complete : Option Point := none
  /-- The low 18 bits of the last started tick number (R405). -/
  lastStarted : Nat := 0
  sealed_ : Option SealRecord := none
  /-- Lines dirtied since the last point, and on a holder that synchronises its partner those dirtied since its last pass
  (R239). -/
  dirty : Tbl Bool := []
  copyDirty : Tbl Bool := []
  /-- The lag beyond 2 ms has been recorded and stands (R77). -/
  lagging : Bool := false
deriving DecidableEq, Repr

/-! ## Station links (R200–R233) -/

/-- The OFFSET of a station not yet known (R207). -/
abbrev offsetUnknown : Nat := 0o777_777

/-- One station position (R213–R230). -/
structure Station where
  present : Bool := false
  awaiting : Bool := false
  /-- Its outputs have been driven with EN 1 in the O-block of the current tick (R224). -/
  enSent : Bool := false
  /-- OFFSET of this Keystone's own end (R214), and of the other end as its relayed O-blocks give it (R210, R230). -/
  offset : Nat := offsetUnknown
  offsetFar : Nat := offsetUnknown
  /-- Its input words are substitute values in the last image, and in the one before (R78, R225). -/
  subNow : Bool := false
  subPrev : Bool := false
  /-- The last DELTA accepted, the last I-block b0, dropouts and segments with a bad FCS (R230). -/
  delta : Nat := 0
  b0 : Word := 0
  dropouts : Nat := 0
  badFcs : Nat := 0
  /-- Polls missed in a row, and whether a rack has ever replied (R233). -/
  missed : Nat := 0
  replied : Bool := false
  /-- The output words of the rack's last poll (R233). -/
  polled : List Word := []
deriving DecidableEq, Repr

/-- An acyclic request (R228, R229). -/
structure Acyclic where
  ticket : Ticket
  pos : Nat
  service : Nat
  param : Nat
  len : Nat
  words : List Word
  tag : Nat
  tries : Nat
  /-- Sent in the current tick and not yet answered or timed out. -/
  out : Bool
deriving DecidableEq, Repr

/-- One station link (R200–R233). -/
structure Link where
  up : Bool := false
  late : Bool := false
  fcsErr : Bool := false
  stale : Bool := false
  broken : Bool := false
  turner : Nat := 0
  relay : Bool := false
  cross : Bool := false
  presentCount : Nat := 0
  outm : Int := 0
  inm : Int := 0
  /-- The payload of each segment of the last O-form emitted, a survey's among them (R203–R207, R216). -/
  frame : List (List Word) := []
  /-- The payload of each segment of the I-form this port emitted last (R209, R211). -/
  turnFrame : List (List Word) := []
  /-- The octets of the last frames the port sent, from the destination address to the padding (R203). -/
  wire : List (List Nat) := []
  /-- What the primary relayed to the standby at T0, and the I-form segments forwarded to the partner in this tick (R210, R212). -/
  relayOut : Option Relay := none
  forwarded : List IForm := []
  /-- I-form segments received in the current tick (R213). -/
  forms : List IForm := []
  /-- This Keystone's port has turned a copy in the current tick (R211). -/
  turned : Bool := false
  /-- The relayed header and blocks of the current tick (R210). -/
  relayIn : Option Relay := none
  /-- Acyclic requests waiting, and the one outstanding (R229). -/
  waiting : List Acyclic := []
  outstanding : Option Acyclic := none
  /-- The TAG of the next request, the payload of the last acyclic frame sent, and what was handed to the partner: a request
  for its end to send, or a reply (R228, R229). -/
  tag : Nat := 0
  acyclicFrame : List Word := []
  callOut : Option AcyclicCall := none
  replyOut : Option AcyclicFrame := none
  /-- Lintel: the position polled, whether its reply is awaited, and the words of complete replies, by
  position × 256 + word (R233). -/
  rack : Nat := 16
  polling : Bool := false
  modules : Tbl Word := []
deriving DecidableEq, Repr

/-! ## The arch (R235–R264) -/

/-- How a takeover began (R255, R264): 0 expiry, 1 release, 2 handover, with the boundary it names. -/
structure Takeover where
  cause : Nat
  boundary : Option Nat
deriving DecidableEq, Repr

/-- The arch side of the Keystone. -/
structure Arch where
  lstate : Nat := 0
  paired : Bool := false
  aup : Bool := false
  bup : Bool := false
  adly : Nat := 0
  bdly : Nat := 0
  aliveIn : Bool := false
  tracked : Bool := false
  relmiss : Bool := false
  pairErr : Nat := 0
  diverged : Bool := false
  epoch : Nat := 0
  lag : Nat := 0
  slip : Nat := 0
  takeovers : Nat := 0
  /-- A heartbeat has been heard within the last 24 µs, and what it said (R242). -/
  heard : Bool := false
  peer : Option Heartbeat := none
  /-- The partner's epoch as last heard, and the highest SEPOCH since Start (R240). -/
  peerEpoch : Nat := 0
  maxSepoch : Nat := 0
  /-- The last heartbeat sent. -/
  beat : List Word := []
  /-- A relay was incomplete at the last boundary (R255). -/
  relayMissed : Bool := false
  /-- The partner has lost the election and waits (R238). -/
  electing : Bool := false
  /-- Lines the last synchronisation pass left dirty; none before the first pass (R239). -/
  dirtyLeft : Option Nat := none
  syncMs : Nat := 0
  syncDone : Bool := false
  /-- Standby: body entries of the ledger of the current tick, and whether it is complete (R247). -/
  entries : List LedgerEntry := []
  ledgerDone : Bool := false
  /-- The last acknowledgement sent: tick number and status (R249). -/
  ackSent : Option (Nat × Nat) := none
  /-- A ledger request stands for the current tick (R249). -/
  rerequested : Bool := false
  /-- Holder: the ledger of the current tick has been acknowledged as good (R250). -/
  acked : Bool := false
  /-- Markers placed in, or received with, the ledger: the activation (identity, tick) and the mode marker
  (1 stop, 2 handover, 3 update; boundary) (R247, R252, R261). -/
  activateMark : Option (Nat × Nat) := none
  modeMark : Option (Nat × Nat) := none
  /-- The holder's last ledger, as sent, with its close (R247). -/
  ledger : List LedgerEntry := []
  ledgerClose : Option LedgerClose := none
  /-- The items of the holder's last synchronisation pass (R239). -/
  passOut : List SyncItem := []
  /-- A release notice pending: the boundary and whether it has been acknowledged (R251). -/
  release : Option (Nat × Bool) := none
  silenced : Bool := false
  /-- The first tick after a takeover runs: at the next T0 each OFFSET is lowered by 800 (R256). -/
  offsetsLower : Bool := false
  /-- The claim of LSTATE 4 (R255). -/
  takeover : Option Takeover := none
  /-- Health reports: the last own one, its SEQ, the partner's last one and its age in seconds (R260). -/
  report : List Word := []
  reportSeq : Nat := 0
  peerReport : List Word := []
  peerAge : Nat := 0
  /-- The owner named by the lease's reclaimed mark, until the lease is next acquired (R166). -/
  leasePrev : Option Nat := none
  /-- Longest lag and largest ledger since the last report, bonds retired at it, and whether it showed the backup below
  240 h (R260). -/
  lagMax : Nat := 0
  ledgerMax : Nat := 0
  retiredSeen : Nat := 0
  backupLow : Bool := false
  /-- T_in of the current tick has passed on a standby, whose image closes with its ledger (R253). -/
  tinPassed : Bool := false
  /-- A ledger of the current tick has been sent (R250). -/
  ledgerSent : Bool := false
  /-- Activations of the last tick that overran: tile, task and tick number low word (R61). -/
  overran : List (Nat × Nat × Nat) := []
  /-- Force changes to enter the ledger of the current tick, as entries with w7 bit 0 set for a clear (R247). -/
  forceMarks : List (List Word) := []
  /-- Receptions not yet in an image, in order of arrival: kind (0 telegram, 1 CAN, 2 serial, 3 message) and entry, channel
  or direction (R248). -/
  arrivals : List (Nat × Nat) := []
deriving DecidableEq, Repr

/-! ## Train networks (R298–R317) -/

/-- One subscription or sink of the telegram table (R301, R302, R309). -/
structure Subscription where
  /-- A telegram complete and waiting for the next image: its octets or port words, and whether its SDTv2 check
  passed. -/
  waiting : Option (List Word × Bool) := none
  /-- The ledger cannot carry it: it waits for the next image (R248). -/
  deferred : Bool := false
  superseded : Nat := 0
  /-- Ticks since the last telegram taken; the flags and LEN of the status word. -/
  age : Nat := 0
  tmo : Bool := false
  stale : Bool := false
  sdtErr : Bool := false
  len : Nat := 0
  /-- The data words of the block as they stand in the image. -/
  data : List Word := []
deriving DecidableEq, Repr

/-- A message-data request sent and not yet answered (R305). -/
structure MdRequest where
  ticket : Ticket
  comId : Nat
  address : Nat
  octets : List Word
deriving DecidableEq, Repr

/-- A receive ring (R324, R334). -/
structure RxRingState where
  log2s : Nat := 6
  base0 : Word := 0
  base1 : Word := 0
  pi : Nat := 0
  ci : Nat := 0
  /-- Entries written and not yet consumed, oldest first. -/
  entries : List (List Word) := []
deriving DecidableEq, Repr

/-- The train-network side (R298–R316). -/
structure Train where
  /-- The telegram table in effect and its settings copy; key 8 × entry + word (R300). -/
  table : Tbl Word := []
  settings : Tbl Word := []
  subs : Tbl Subscription := []
  /-- Publications due in this tick and not yet sent, in table order; those dropped (R303). -/
  due : List Nat := []
  dropped : Nat := 0
  /-- The last telegram sent, and the last answer of a source port: entry and block words (R303). -/
  published : Option (Nat × List Word) := none
  answered : Option (Nat × List Word) := none
  requests : List MdRequest := []
  /-- The last notify sent: ComId, address entry and octets, one per nonet. -/
  notified : Option (Nat × Nat × List Word) := none
  messages : RxRingState := {}
  messagesLost : Nat := 0
  /-- Inauguration (R306–R310). -/
  inaug : Bool := false
  /-- The inauguration has been shown in an image (R306). -/
  inaugShown : Bool := false
  confirmed : Option Topology := none
  applied : Option Topology := none
  /-- The topology words in force: ORIENT, TVALID, CONS and NCONS; CARPOS and NCARS; the TTDP counter, low and high (R307);
  and whether they came from the holder's ledger (R310). -/
  topo : List Word := [0, 0, 0, 0]
  topoCarried : Bool := false
  inh : Bool := false
  /-- Time (R311–R314). -/
  tstate : Nat := 0
  offset : Int := 0
  /-- e of the last boundary in ns, and consecutive ticks within ±0.25 µs. -/
  e : Int := 0
  aligned : Nat := 0
  /-- The correction of the last tick in LOCKED, and the length of the tick that runs, both in ns (R312). -/
  rate : Int := 0
  length : Int := 1000000
  synced : Bool := false
  ppsSeen : Bool := false
  ppsOut : Bool := false
  gm : Bool := false
  /-- Links and rings (R299, R315). -/
  etb1 : Bool := false
  etb2 : Bool := false
  /-- MRPS as the ring last changed: 0 no change yet, 1 closed, 2 open. -/
  mrp : Nat := 0
  mvbLineB : Bool := false
deriving DecidableEq, Repr

/-! ## CAN and serial channels (R318–R335) -/

/-- A frame to be sent on a CAN channel (R320, R333). -/
structure CanTx where
  ticket : Ticket
  ide : Bool
  rtr : Bool
  fdf : Bool
  brs : Bool
  oneshot : Bool
  echo : Bool
  dlc : Nat
  id : Nat
  words : List Word
  /-- Aborted while on the bus: it runs to its end of frame (R322). -/
  aborting : Bool := false
deriving DecidableEq, Repr

/-- One CAN channel (R318–R328). -/
structure Can where
  /-- 0 error-active, 1 error-passive, 2 bus-off (R326). -/
  state : Nat := 0
  tec : Nat := 0
  rec_ : Nat := 0
  pending : List CanTx := []
  /-- TB0–TB2. -/
  buffers : Tbl (Option CanTx) := []
  /-- The buffer whose frame is being sent. -/
  sending : Option Nat := none
  /-- Under TXORD 1: the buffer to load and to send next (R320). -/
  loadTurn : Nat := 0
  sendTurn : Nat := 0
  recovering : Bool := false
  /-- The image queue, oldest first: entries of 40 words (R324). -/
  queue : List (List Word) := []
  /-- Entries lost from the queue since the previous image (R326). -/
  overflow : Bool := false
  /-- Entries admitted to the image at this T_in; none without a bound (R248). -/
  admitted : Option Nat := none
  lostImg : Nat := 0
  lostRing : Nat := 0
  /-- Entries lost on the ring and not yet reported by an event of code 6 (R325). -/
  unreported : Nat := 0
  /-- Error frames sent in answer to an FD frame (R318). -/
  errorFrames : Nat := 0
deriving DecidableEq, Repr

/-- A serial transmission (R332, R333). -/
structure SerTx where
  ticket : Ticket
  echo : Bool
  count : Nat
  words : List Word
  aborting : Bool := false
deriving DecidableEq, Repr

/-- One serial channel (R329–R334). -/
structure Serial where
  pending : List SerTx := []
  /-- The transmission for which the driver is or will be enabled (R332). -/
  active : Option SerTx := none
  ferr : Bool := false
  perr : Bool := false
  brk : Bool := false
  /-- The image queue: whole frames, header and characters (R331). -/
  queue : List (List Word) := []
  overflow : Bool := false
  /-- Frames admitted to the image at this T_in; none without a bound (R248). -/
  admitted : Option Nat := none
  lostImg : Nat := 0
  lostRing : Nat := 0
deriving DecidableEq, Repr


/-! ## Clock and watchdog (R434–R456) -/

/-- A master's shadow of the clock (R440). -/
structure Shadow where
  sub : Nat
  lin : Nat
  time : Word
  date : Word
deriving DecidableEq, Repr

/-- An alarm (R445). -/
structure Alarm where
  time : Word := 0
  date : Word := 0
  arm : Bool := false
  fired : Bool := false
  skipped : Bool := false
  /-- It fired while the recorder was closed: its event is recorded at the next Start. -/
  owed : Bool := false
deriving DecidableEq, Repr

/-- The real-time clock and the rest of power domain PD0 (R434–R447). -/
structure Clock where
  /-- Seconds since 2000-01-01 and sub-second in 2⁻¹⁸ s, a multiple of 8 (R437). -/
  sec : Nat := 0
  sub : Nat := 0
  halt : Bool := false
  stager : Nat := noOwner
  /-- The credential under which staging was opened (R441, R467). -/
  stagerCred : Cred := {}
  stSub : Option Word := none
  stTime : Option Word := none
  stDate : Option Word := none
  wrlost : Bool := false
  ostop : Bool := false
  ocause : Nat := 0
  /-- The first Start has reported OSTOP (R443). -/
  ostopTold : Bool := false
  /-- Shadows by master; none while not frosted (R440). -/
  shadows : Tbl (Option Shadow) := []
  src : Bool := false
  bkext : Bool := false
  wrapend : Bool := false
  alarms : Tbl Alarm := []
  /-- Firings not yet shown by input word 0o077_013 (R446). -/
  report : Word := 0
  /-- RTC_CAL in 0.1 ppm (R439). -/
  cal : Int := 0
  /-- The part of a count that RTC_CAL has not yet inserted or deleted, in 10⁻⁷ counts (R439). -/
  calPart : Int := 0
  /-- The difference still to be slewed, in 2⁻¹⁸ s, and the part of a count that the slew has not yet moved, in 10⁻⁶ counts
  (R444). -/
  slew : Int := 0
  slewPart : Nat := 0
  /-- BK_W0–BK_W23 (R436). -/
  backup : Tbl Word := []
deriving DecidableEq, Repr

/-- The window watchdog (R448–R456). -/
structure Watchdog where
  /-- The maker's option fuse: hardware start (R454). -/
  hwStart : Bool := false
  run : Bool := false
  /-- WD_CFG, WD_OPEN, WD_CLOSE and WD_CHK0–15 in effect, by index (R455). -/
  inEffect : Tbl (Option Word) := []
  /-- Whole periods of 1 µs since the last service (R449). -/
  c : Nat := 0
  expired : Bool := false
  cause : Nat := 0
  monlost : Bool := false
  /-- SRCF: the foreman is the source of service (R450). -/
  srcf : Bool := true
  /-- WD_CHKS and WD_MISS: bit j for slot j. -/
  chks : Nat := 0
  miss : Nat := 0
  /-- Pulses of WD_TRIP made (R453). -/
  trips : Nat := 0
  /-- Output words 0o077_040–0o077_057 as committed by the end of the last tick, which check-ins compare with (R451). -/
  words : Tbl Word := []
deriving DecidableEq, Repr

/-! ## Feeds and power (R483–R501) -/

/-- Feeds, the hold-up bank, the power domains and the baseplate (R483–R500). -/
structure Power where
  feedA : FeedClass := .absent
  feedB : FeedClass := .absent
  /-- Voltages in 0.1 V (R500). -/
  voltsA : Nat := 0
  voltsB : Nat := 0
  pfail : Bool := false
  ride : Bool := false
  /-- Bank voltage in 0.1 V, and SROK (R487); the bank has failed (R41). -/
  hold : Nat := 0
  srok : Bool := false
  failed : Bool := false
  /-- Domains that are on, and those switched off by a fault with a retry owed (R490, R491). -/
  on : Tbl Bool := []
  retry : Tbl Bool := []
  /-- Baseplate temperature in 0.1 °C, and the highest threshold passed: 0 none, 1 85 °C, 2 95 °C (R499). -/
  temp : Int := 0
  hot : Nat := 0
deriving DecidableEq, Repr

/-- The host link as HL_STAT shows it (R281). -/
structure HostLink where
  width : Nat := 0
  gen2 : Bool := false
  up : Bool := false
deriving DecidableEq, Repr

/-! ## The safety island (R336–R362) -/

/-- One input pair (R339, R340). -/
structure PairState where
  /-- Causes raised, bit c for cause code c. -/
  faults : Nat := 0
  /-- Cycles the channels have disagreed about the closed state. -/
  apart : Nat := 0
deriving DecidableEq, Repr

/-- One function (R345, R346). -/
structure FnState where
  res : Bool := false
  /-- With RST: fallen to 0, and waiting for a reset. -/
  fallen : Bool := false
  rstReq : Bool := false
  /-- GUARD: both channels have been seen in the demand state since the last result 0. -/
  seen : Bool := false
  /-- TWOHAND: both buttons have been released, and the cycle of the first press. -/
  ready : Bool := false
  first : Option Nat := none
deriving DecidableEq, Repr

/-- One safety output (R342, R343): on, and its causes, bit c for cause code c. -/
structure SafeOut where
  on : Bool := false
  faults : Nat := 0
deriving DecidableEq, Repr

/-- The safety island (R336–R361). -/
structure Island where
  /-- ISTATE: 0 starting, 1 unconfigured, 2 running, 3 halted. -/
  istate : Nat := 0
  /-- The active block of 32 words and the confirmed check value beside it (R357, R360). -/
  block : Option (List Word) := none
  confirmed : Option Dword := none
  staged : Option (List Word) := none
  /-- The staged block becomes active at the next cycle (R359). -/
  activateDue : Bool := false
  /-- Filtered channel states, bit 2i for SIiA and 2i + 1 for SIiB (R339). -/
  inputs : Nat := 0
  pairs : Tbl PairState := []
  /-- TPFLT: sources with a fault raised. -/
  sources : Nat := 0
  fns : Tbl FnState := []
  outs : Tbl SafeOut := []
  /-- What the last cycle found: the causes still present (R343). -/
  last : IslandInputs := ⟨0, 0, 0, 0, 0, 0, false⟩
  sovOk : Bool := false
  /-- The latest enables message: its words 0–2, and SEQ of the last one taken. -/
  message : List Word := []
  seq : Nat := 0
  entmo : Bool := false
  /-- Enables of the last exchange before Hold (R348). -/
  heldEnables : Nat := 0
  /-- Cycle in which each reset request rose, and resets taken since the last cycle (R346). -/
  rose : Tbl (Option Nat) := []
  resets : Nat := 0
  /-- Island cycle count (R350). -/
  cycles : Nat := 0
  /-- SF_CAUSE: CODE and INDEX. -/
  causeCode : Nat := 0
  causeIndex : Nat := 0
  /-- SF_RST, and the cycles of the restarts that may still count (R336). -/
  restarts : Nat := 0
  recent : List Nat := []
deriving DecidableEq, Repr

/-! ## Field inputs and outputs (R364–R376) -/

/-- One field output (R370, R376). -/
structure FieldOut where
  commanded : Bool := false
  /-- The switch is on. -/
  on : Bool := false
  /-- Causes latched, and causes present, bit c for fault code c (R370). -/
  latched : Nat := 0
  present : Nat := 0
deriving DecidableEq, Repr

/-- The field side (R364–R376). -/
structure Field where
  /-- Debounced class of each input: 0 off, 1 on, 2 wire break, 3 reversed (R367, R368). -/
  inputs : Tbl Nat := []
  /-- The three image words of the latest latch (R365). -/
  sampled0 : Word := 0
  sampled1 : Word := 0
  faults : Word := 0
  /-- The fault word of the last image. -/
  shown : Word := 0
  outs : Tbl FieldOut := []
  silent : Bool := false
  /-- UTC at the latest latch instant (R70). -/
  utcSec : Nat := 0
  utcSub : Nat := 0
deriving DecidableEq, Repr

/-! ## Modes, requests and the start (R22–R40) -/

/-- A mode request accepted and waiting for its boundary (R27, R28). -/
structure ModeRequest where
  target : Mode
  /-- The mode it was made in: a request is one for the transition listed from there (R26). -/
  made : Mode
  init : Bool
  ticket : Ticket
  role : Nat
  fp : Nat
  /-- Its marker could not enter the ledger of the current tick: it takes effect one tick later (R252). -/
  wait : Bool := false
deriving DecidableEq, Repr

/-- Mode, role and restart state. -/
structure ModeState where
  mode : Mode := .off
  prev : Mode := .off
  /-- Accepted requests, in arrival order (R28). -/
  requests : List ModeRequest := []
  /-- Causes due at the next boundary (R28). -/
  safeDue : Bool := false
  staleDue : Bool := false
  sealDue : Bool := false
  stopDue : Bool := false
  /-- A Safe cause that lost to Seal, or stands at start (R28, R34). -/
  safePending : Bool := false
  /-- MD_RESTART: KIND, OUTAGE_UNK, CAUSE and FALLBACK. -/
  kind : Nat := 0
  outageUnk : Bool := false
  cause : Nat := 0
  fallback : Bool := false
  /-- MD_LOST (R37). -/
  lost : Nat := 0
  /-- The mode of the last seal, as restore found it; none after an unsealed or cold restart. -/
  sealedMode : Option Mode := none
  /-- A cold restart is owed: 2 initialisation requested, 4 new program, 5 settings reset (R38). -/
  coldCause : Nat := 0
  /-- The current tick is a start tick (R40, R53). -/
  startTick : Bool := false
  /-- Outputs stay safe at the T0 of the first Run tick (R39). -/
  holdOutputs : Bool := false
  /-- A tick runs in which tasks run: Run, Track, Takeover, or STEP_TICK (R46, R196). -/
  tasksRun : Bool := false
  /-- The input image of the current tick has closed (R46). -/
  imageClosed : Bool := false
  /-- A start fault, or too few healthy bonds, ends Start in Safe (R26, R33). -/
  startFault : Bool := false
  /-- What restore decided (R35–R38): KIND, CAUSE and OUTAGE_UNK, and UTC at the end of the tick restored. -/
  foundKind : Nat := 0
  foundCause : Nat := 0
  foundUnk : Bool := false
  foundUtc : Nat × Nat := (0, 0)
  /-- Start ended in Stop because the partner holds the lease in another mode (R34). -/
  waitsForPartner : Bool := false
  /-- The session that asked for Service (R26). -/
  serviceSession : Option Nat := none
  /-- The mode at Seal entry, while the seal runs (R407). -/
  sealFrom : Option Mode := none
deriving DecidableEq, Repr

/-! ## The whole state -/

/-- The Keystone, and the queue of commands waiting for it, first in first out. -/
structure State where
  /-- The model's own: the commands waiting, oldest first. -/
  pending : List Instr := []
  /-- The model's own: the values the last read command returned, one for each reader. -/
  lastRead : List Word := []
  /-- The model's own: the counter that numbers the free values. -/
  fresh : Nat := 0
  /-- 0 KS-2, 1 KS-4, 2 KS-8 (R1); the option fuse that removes the reserve bonds (R4). -/
  variant : Nat := 2
  noReserves : Bool := false
  md : ModeState := {}
  work : Work := {}
  /-- The tick set-up values in effect (R45), and the staged half of TK_PER0. -/
  tick : TickSetup := {}
  perStaged : Option Word := none
  /-- TK_OVR: tile, CONSEC, VALID, task (R61). -/
  ovrTile : Nat := 0
  ovrConsec : Nat := 0
  ovrValid : Bool := false
  ovrTask : Nat := 0
  tiles : Tbl Tile := []
  dies : Tbl Die := []
  /-- The model's own: memory errors that the next read of their word meets (R143). -/
  upsets : List Upset := []
  persist : Persist := {}
  online : Online := {}
  rings : Tbl Ring := []
  channels : Tbl Channel := []
  refusedSends : Nat := 0
  /-- Tile effects discarded in Track (R254). -/
  trackDiscards : Nat := 0
  locks : Tbl Lock := []
  /-- MSI-X vectors raised to the host link, and doorbells raised to the foreman (R267, R269). -/
  msix : List Nat := []
  foremanEvents : List Nat := []
  recorder : Recorder := {}
  pages : PageStore := {}
  /-- Set-up registers that hold settings or other written values, by index (R503, R509, R510). -/
  setup : Tbl (Option Word) := []
  /-- The set-up registers as they stood at the last boundary, for those that take effect there, and at the
  last Start, for those that take effect there. -/
  setupTick : Tbl (Option Word) := []
  setupStart : Tbl (Option Word) := []
  /-- Latched high words; key master × 2^18 + index (R506). -/
  latches : Tbl (Option Word) := []
  /-- HL_IGN (R281). -/
  ignored : Nat := 0
  /-- Credentials bound to rings (R466), the sessions, and the program's credential. -/
  ringCreds : Tbl Cred := []
  sessions : List Session := []
  sessionOut : List (Nat × Completion) := []
  programCred : Cred := {}
  identity : Identity := {}
  firmware : Firmware := {}
  /-- The maker session that holds the debug port open (R466). -/
  debugOpen : Option Nat := none
  clock : Clock := {}
  watchdog : Watchdog := {}
  power : Power := {}
  hostLink : HostLink := {}
  island : Island := {}
  field : Field := {}
  modulators : Modulators := {}
  arch : Arch := {}
  links : Tbl Link := []
  stations : Tbl Station := []
  train : Train := {}
  cans : Tbl Can := []
  serials : Tbl Serial := []
  canRx : RxRingState := {}
  serialRx : RxRingState := {}
deriving DecidableEq, Repr

/-- Why the block stops for good. No command of the block stops it; the fault exists so that an access
outside the part (a tile, ring, channel or lock number it does not have) has a name if a meaning ever
raises it. Safe: the model stops where the spec gives nothing. -/
inductive Fault where
  /-- A command named a unit that no variant of the part has. Raised by no meaning. Safe. -/
  | noSuchUnit
deriving DecidableEq, Repr

/-- Why a command is not run. -/
inductive Refusal where
  /-- The command has no meaning yet. Safe: nothing is claimed of it. -/
  | notModelled (mnemonic : String)
deriving DecidableEq, Repr

/-- The module right after manufacture, unpowered in Off: every setting at its value at manufacture
(R510), nothing recorded, no program loaded, no command waiting. -/
def State.reset : State := {}

end Sys2Proof.Machine
end

