-- ==== Sys2Proof/Machine/Operands.lean ====
section
/-!
DEFINITION. The operand forms of the tile instructions: registers and pairs (R101, R106), immediates
(R104), addresses (R107, R115), and the words of an instruction as encoded (R104, R105).
-/

namespace Sys2Proof.Machine

/-- Register g(r) (R101). -/
def Cpu.reg (c : Cpu) (r : Reg) : Word := Tbl.get 0 c.regs r.toNat

/-- Write register g(r). -/
def Cpu.setReg (c : Cpu) (r : Reg) (w : Word) : Cpu := { c with regs := Tbl.set 0 c.regs r.toNat w }

/-- The even register of the pair a field names (R106). -/
def evenReg (r : Reg) : Reg := r &&& 6

/-- The odd register of the pair a field names (R106). -/
def oddReg (r : Reg) : Reg := r ||| 1

/-- Register pair d(r / 2), low word in the even register (R101, R106). -/
def Cpu.pair (c : Cpu) (r : Reg) : Dword := joinDword (c.reg (evenReg r)) (c.reg (oddReg r))

/-- Write a register pair (R106). -/
def Cpu.setPair (c : Cpu) (r : Reg) (d : Dword) : Cpu :=
  (c.setReg (evenReg r) (dwordLow d)).setReg (oddReg r) (dwordHigh d)

/-- Set the flags of the core. -/
def Cpu.setFlags (c : Cpu) (f : Flags) : Cpu := { c with fl := f }

/-- The condition codes of R112. -/
def Flags.holds (f : Flags) (cc : BitVec 4) : Bool :=
  match cc.toNat with
  | 0 => true
  | 1 => f.z
  | 2 => !f.z
  | 3 => f.c
  | 4 => !f.c
  | 5 => f.n
  | 6 => !f.n
  | 7 => f.v
  | 8 => !f.v
  | 9 => f.n != f.v
  | 10 => f.n == f.v
  | 11 => f.z || f.n != f.v
  | 12 => !f.z && f.n == f.v
  | 13 => f.c || f.z
  | 14 => !f.c && !f.z
  | _ => f.s

/-- FL as a word: bits 17:5 read as 0 (R103). -/
def Flags.toWord (f : Flags) : Word :=
  word (flagNat f.z + 2 * flagNat f.n + 4 * flagNat f.c + 8 * flagNat f.v + 16 * flagNat f.s)

/-- FL from a word: bits 17:5 ignore writes (R103). -/
def Flags.ofWord (w : Word) : Flags :=
  { z := bitOf w 0, n := bitOf w 1, c := bitOf w 2, v := bitOf w 3, s := bitOf w 4 }

/-- A signed 6-bit immediate (R104). -/
def simm6 (imm : BitVec 6) : Word := imm.signExtend 18

/-- The effective address (gb + simm6) modulo 131,072 (R115). -/
def Cpu.ea (c : Cpu) (b : Reg) (imm : BitVec 6) : Addr := (c.reg b + simm6 imm).truncate 17

/-- Bits 16:0 of a word, as an address (R107). -/
def addrOf (w : Word) : Addr := w.truncate 17

/-- A relative target: the branch word's address, plus 1, plus the signed offset (R107). -/
def relTarget {n : Nat} (pc : Addr) (off : BitVec n) : Addr := pc + 1 + off.signExtend 17

/-- A header word (R104): op, a, b and c. -/
def header (op : Nat) (a b : Reg) (c : BitVec 6) : Word :=
  BitVec.ofNat 6 op ++ a ++ b ++ c

/-- The c field of an r use: the sub-op in bits 5:3 and gc in bits 2:0 (R104). -/
def rField (sub : Nat) (c : Reg) : BitVec 6 := BitVec.ofNat 3 sub ++ c

/-- The second word of the bit-field group: pos, len and 0 (R105). -/
def bfWord (pos len : BitVec 6) : Word := pos ++ len ++ (0 : BitVec 6)

/-- The instruction length by op alone: 0o00–0o57 one word, 0o60–0o77 two (R105). -/
def lengthOf (w : Word) : Nat := if 48 ≤ bitsOf w 17 12 then 2 else 1

/-- A shift, rotate or bit count: any count above 17 is taken as 17 (R87, R113). -/
def clampCount (n : Nat) : Nat := min n 17

/-- The position of a bit field, clamped to 0–17 (R123). -/
def fieldPos (pos : BitVec 6) : Nat := min pos.toNat 17

/-- The length of a bit field, clamped to the range 1 to 18 − pos (R123). -/
def fieldLen (pos len : BitVec 6) : Nat := max 1 (min len.toNat (18 - fieldPos pos))

end Sys2Proof.Machine
end

