-- ==== Sys2Proof/Machine/Flags.lean ====
section
/-!
DEFINITION. The results and flags of the tile's arithmetic (R103, R113, R114, R123–R125), each computed
as an exact integer and narrowed at the end.
-/

namespace Sys2Proof.Machine

/-- A result with the carry or borrow and the signed overflow it gives (R103). -/
structure AluResult (w : Nat) where
  value : BitVec w
  c : Bool
  v : Bool
deriving DecidableEq, Repr

/-- Whether an integer lies outside the signed range of `w` bits. -/
def outOfRange (w : Nat) (x : Int) : Bool := decide (x < -(2 ^ (w - 1) : Int)) || decide ((2 ^ (w - 1) : Int) ≤ x)

/-- Add with carry in: C is the carry out and V the signed overflow (R103, R113). -/
def addWith {w : Nat} (a b : BitVec w) (cin : Bool) : AluResult w :=
  { value := BitVec.ofNat w (a.toNat + b.toNat + flagNat cin)
    c := decide (2 ^ w ≤ a.toNat + b.toNat + flagNat cin)
    v := outOfRange w (a.toInt + b.toInt + (flagNat cin : Int)) }

/-- Subtract with borrow in: C is the borrow and V the signed overflow (R103, R113). -/
def subWith {w : Nat} (a b : BitVec w) (bin : Bool) : AluResult w :=
  { value := BitVec.ofInt w ((a.toNat : Int) - b.toNat - (flagNat bin : Int))
    c := decide (a.toNat < b.toNat + flagNat bin)
    v := outOfRange w (a.toInt - b.toInt - (flagNat bin : Int)) }

/-- Z and N of a result (R103). -/
def Flags.zn {w : Nat} (f : Flags) (r : BitVec w) : Flags := { f with z := decide (r = 0), n := r.msb }

/-- Z, N, C and V of a result. -/
def Flags.zncv {w : Nat} (f : Flags) (r : AluResult w) : Flags :=
  { (f.zn r.value) with c := r.c, v := r.v }

/-- Z, N and C of a shift: C is the last bit shifted out. -/
def Flags.znc (f : Flags) (r : Word) (c : Bool) : Flags := { (f.zn r) with c := c }

/-- Z, N, V of a saturating operation; S is set whenever it sets V (R103). -/
def Flags.znvs (f : Flags) (r : Word) (sat : Bool) : Flags := { (f.zn r) with v := sat, s := f.s || sat }

/-- A saturated result and whether it saturated. -/
structure SatResult where
  value : Word
  sat : Bool
deriving DecidableEq, Repr

/-- Saturate at −131,072 and 131,071 (R113). -/
def satSigned (x : Int) : SatResult :=
  if x < -131072 then ⟨BitVec.ofInt 18 (-131072), true⟩
  else if 131071 < x then ⟨BitVec.ofInt 18 131071, true⟩
  else ⟨BitVec.ofInt 18 x, false⟩

/-- Saturate at 0 and 262,143 (R113). -/
def satUnsigned (x : Int) : SatResult :=
  if x < 0 then ⟨0, true⟩ else if 262143 < x then ⟨BitVec.ofInt 18 262143, true⟩ else ⟨BitVec.ofInt 18 x, false⟩

/-- Signed and unsigned minimum and maximum (R113). -/
def minSigned (a b : Word) : Word := if a.toInt ≤ b.toInt then a else b
/-- Signed maximum (R113). -/
def maxSigned (a b : Word) : Word := if a.toInt ≤ b.toInt then b else a
/-- Unsigned minimum (R113). -/
def minUnsigned (a b : Word) : Word := if a.toNat ≤ b.toNat then a else b
/-- Unsigned maximum (R113). -/
def maxUnsigned (a b : Word) : Word := if a.toNat ≤ b.toNat then b else a

/-- The kinds of shift and rotate (R113). -/
inductive ShiftKind where
  | shl | shr | sar | rol | ror
deriving DecidableEq, Repr

/-- A word shifted or rotated by a clamped count (R113). -/
def shiftValue (k : ShiftKind) (a : Word) (n : Nat) : Word :=
  match k with
  | .shl => a <<< n
  | .shr => a >>> n
  | .sar => a.sshiftRight n
  | .rol => a.rotateLeft n
  | .ror => a.rotateRight n

/-- The last bit shifted or rotated out, 0 when the count is 0 (R113). -/
def shiftCarry (k : ShiftKind) (a : Word) (n : Nat) : Bool :=
  if n = 0 then false
  else match k with
    | .shl | .rol => a.getLsbD (18 - n)
    | .shr | .sar | .ror => a.getLsbD (n - 1)

/-- What a divide leaves (R114): quotient, remainder, saturation and a divisor of 0. -/
structure DivResult where
  quotient : Word
  remainder : Word
  sat : Bool
  byZero : Bool
deriving DecidableEq, Repr

/-- DIVS (R114): truncation towards zero, the remainder with the dividend's sign, saturation by the sign of
the true quotient; a divisor of 0 saturates by the dividend's sign, 0 counting as positive. -/
def divSigned (d : Dword) (g : Word) : DivResult :=
  if g = 0 then ⟨if d.toInt < 0 then 0o400_000 else 0o377_777, 0, true, true⟩
  else
    let q := d.toInt.tdiv g.toInt
    if q < -131072 then ⟨0o400_000, 0, true, false⟩
    else if 131071 < q then ⟨0o377_777, 0, true, false⟩
    else ⟨BitVec.ofInt 18 q, BitVec.ofInt 18 (d.toInt.tmod g.toInt), false, false⟩

/-- DIVU (R114). -/
def divUnsigned (d : Dword) (g : Word) : DivResult :=
  if g = 0 then ⟨0o777_777, 0, true, true⟩
  else
    let q := d.toNat / g.toNat
    if 262143 < q then ⟨0o777_777, 0, true, false⟩
    else ⟨BitVec.ofNat 18 q, BitVec.ofNat 18 (d.toNat % g.toNat), false, false⟩

/-- The flags of a divide (R114): Z and N of the quotient, C 0, V and S on saturation. -/
def Flags.divided (f : Flags) (r : DivResult) : Flags :=
  { (f.zn r.quotient) with c := false, v := r.sat, s := f.s || r.sat }

/-- The exact product of two words (R113). -/
def mulSigned (a b : Word) : Dword := BitVec.ofInt 36 (a.toInt * b.toInt)
/-- The exact unsigned product (R113). -/
def mulUnsigned (a b : Word) : Dword := BitVec.ofNat 36 (a.toNat * b.toNat)

/-- The flags of a multiply: Z and N of the pair, C 0 and V 0 (R113). -/
def Flags.multiplied (f : Flags) (r : Dword) : Flags := { (f.zn r) with c := false, v := false }

/-- Zeros above the highest 1 bit, counted from bit `n − 1` down (R124). -/
def leadingZeros (a : Word) : Nat → Nat
  | 0 => 0
  | n + 1 => if a.getLsbD n then 0 else leadingZeros a n + 1

/-- Zeros below the lowest 1 bit, counted over the top `n` bits (R124). -/
def trailingZeros (a : Word) : Nat → Nat
  | 0 => 0
  | n + 1 => if a.getLsbD (17 - n) then 0 else trailingZeros a n + 1

/-- The number of 1 bits among the low `n` (R124). -/
def onesIn (a : Word) : Nat → Nat
  | 0 => 0
  | n + 1 => flagNat (a.getLsbD n) + onesIn a n

/-- Bit i moved to bit 17 − i (R124). -/
def reverseBits (a : Word) : Word := a.reverse

/-- The two nonets exchanged (R124). -/
def swapNonets (a : Word) : Word := a.extractLsb' 0 9 ++ a.extractLsb' 9 9

/-- Bits 7:0, sign-extended (R124). -/
def signOctet (a : Word) : Word := (a.extractLsb' 0 8).signExtend 18
/-- Bits 8:0, sign-extended (R124). -/
def signNonet (a : Word) : Word := (a.extractLsb' 0 9).signExtend 18

/-- A mask of `len` ones from bit `pos` (R123). -/
def fieldMask (pos len : Nat) : Word := word ((2 ^ len - 1) * 2 ^ pos)

/-- The field of a word moved to bit 0 (R123). -/
def fieldOf (a : Word) (pos len : Nat) : Word := (a >>> pos) &&& fieldMask 0 len

/-- The field of a word, sign-extended from its top bit (R123). -/
def fieldSigned (a : Word) (pos len : Nat) : Word :=
  if a.getLsbD (pos + len - 1) then fieldOf a pos len ||| ~~~ fieldMask 0 len else fieldOf a pos len

/-- The low bits of `b` put into the field of `a` (R123). -/
def fieldInsert (a b : Word) (pos len : Nat) : Word :=
  (a &&& ~~~ fieldMask pos len) ||| ((b <<< pos) &&& fieldMask pos len)

/-- Nonet `i` of a double word (R10). -/
def nonetOf (d : Dword) (i : Nat) : BitVec 9 := d.extractLsb' (9 * i) 9

/-- NPERM (R125): four nonets chosen by an 8-bit selector, two bits each from nonet 0 upward. -/
def nonetPermute (d : Dword) (sel : BitVec 8) : Dword :=
  nonetOf d (sel.extractLsb' 6 2).toNat ++ nonetOf d (sel.extractLsb' 4 2).toNat ++
    nonetOf d (sel.extractLsb' 2 2).toNat ++ nonetOf d (sel.extractLsb' 0 2).toNat

end Sys2Proof.Machine
end

