-- ==== Sys2Proof/Machine/Ops.lean ====
section
/-!
DEFINITION. The named operations over the state that the meanings share: units by number, the recorder's
queue, the dirty lines, rings and their completions, rights, doorbells. The block takes no exception of a
processor's kind; the traps of a tile are in Machine/TileOps.lean.
-/

namespace Sys2Proof.Machine

/-- What a command answers. -/
abbrev Out := Host.Outcome State Fault Refusal

/-- Insert into a list ascending in a key, after its equals. -/
def insertBy {α : Type} (key : α → Nat) (a : α) : List α → List α
  | [] => [a]
  | b :: rest => if key a < key b then a :: b :: rest else b :: insertBy key a rest

/-- A list in ascending order of a key, equals in the order given. -/
def sortBy {α : Type} (key : α → Nat) (l : List α) : List α := l.foldl (fun acc a => insertBy key a acc) []

/-! ## Modes and units -/

/-- The mode codes of R22. -/
def Mode.code : Mode → Nat
  | .off => 0 | .backup => 1 | .start => 2 | .stop => 3 | .run => 4 | .hold => 5
  | .track => 6 | .takeover => 7 | .safe => 8 | .seal => 9 | .update => 10 | .service => 11

/-- Tile dies of the variant (R1): 1, 3 or 7. -/
def State.dieCount (s : State) : Nat := if s.variant = 0 then 1 else if s.variant = 1 then 3 else 7

/-- Tiles each die runs: three as shipped, four without reserves (R4). -/
def State.tilesPerDie (s : State) : Nat := if s.noReserves then 4 else 3

/-- Tiles the Keystone runs (R1, R5). -/
def State.tileCount (s : State) : Nat := s.dieCount * s.tilesPerDie

/-- The die that holds a tile (R5). -/
def State.dieOf (s : State) (t : Nat) : Nat := t / s.tilesPerDie + 1

/-- The running side of tile `t`. -/
def State.tile (s : State) (t : Nat) : Tile := Tbl.get {} s.tiles t

/-- Write the running side of tile `t`. -/
def State.setTile (s : State) (t : Nat) (x : Tile) : State := { s with tiles := Tbl.set {} s.tiles t x }

/-- The memories and tables of tile `t`. -/
def State.mem (s : State) (t : Nat) : TileMem := Tbl.get {} s.work.mem t

/-- Write the memories and tables of tile `t`. -/
def State.setMem (s : State) (t : Nat) (x : TileMem) : State :=
  { s with work := { s.work with mem := Tbl.set {} s.work.mem t x } }

/-- Tile die `d`. -/
def State.die (s : State) (d : Nat) : Die := Tbl.get {} s.dies d

/-- Write tile die `d`. -/
def State.setDie (s : State) (d : Nat) (x : Die) : State := { s with dies := Tbl.set {} s.dies d x }

/-- Ring `r`. -/
def State.ring (s : State) (r : Nat) : Ring := Tbl.get {} s.rings r

/-- Write ring `r`. -/
def State.setRing (s : State) (r : Nat) (x : Ring) : State := { s with rings := Tbl.set {} s.rings r x }

/-- Mailbox channel `c`. -/
def State.channel (s : State) (c : Nat) : Channel := Tbl.get {} s.channels c

/-- Write mailbox channel `c`. -/
def State.setChannel (s : State) (c : Nat) (x : Channel) : State :=
  { s with channels := Tbl.set {} s.channels c x }

/-- Lock `k`. -/
def State.lock (s : State) (k : Nat) : Lock := Tbl.get {} s.locks k

/-- Write lock `k`. -/
def State.setLock (s : State) (k : Nat) (x : Lock) : State := { s with locks := Tbl.set {} s.locks k x }

/-- Apply a function to the mode state. -/
def State.setMd (s : State) (m : ModeState) : State := { s with md := m }

/-- The 36-bit tick number and the era (R44). -/
def State.tickNumber (s : State) : Nat := s.work.count % Config.tickModulus

/-- The tick era (R44). -/
def State.era (s : State) : Nat := s.work.count / Config.tickModulus % 2 ^ 18

/-- A count held modulo 262,144. -/
def inc18 (n : Nat) : Nat := (n + 1) % 2 ^ 18

/-- Add to a count held modulo 262,144. -/
def add18 (n k : Nat) : Nat := (n + k) % 2 ^ 18

/-- The modes in which the tick runs (R22). -/
def Mode.ticks : Mode → Bool
  | .stop | .run | .hold | .track | .takeover | .safe => true
  | _ => false

/-- The modes that are powered (R22). -/
def Mode.powered : Mode → Bool
  | .off | .backup => false
  | _ => true

/-- A cause of Safe arises (R20, R26, R28): due at the next boundary where Safe is listed from the present mode; in Start and
in Seal the next mode is Safe for it; in Safe, Service and Update no transition to Safe is listed. -/
def State.oweSafe (s : State) : State :=
  match s.md.mode with
  | .stop | .run | .hold | .track | .takeover => { s with md := { s.md with safeDue := true } }
  | .start | .seal => { s with md := { s.md with safePending := true } }
  | _ => s

/-! ## Recorder (R411) -/

/-- The CODE field of an event. -/
def EventCode.word : EventCode → Word
  | .given n => Sys2Proof.word n
  | .named n => Config.eventCode n.ctorIdx

/-- Queue an event with the clock's time, when the recorder is open (R23); beyond 4,096 waiting, fold it
into the "records lost" record (R411). DEDUCED: its REP counts what is folded in after its first occurrence, as in every
record (R409), so that REP + 1 occurrences were lost. -/
def State.record (s : State) (e : Event) : State :=
  if !s.recorder.open_ then s
  else
    let q := s.recorder.queue
    let entry : Waiting := ⟨e, s.clock.sec, s.clock.sub, 0⟩
    let q' :=
      if q.length < 4096 then q ++ [entry]
      else match q.getLast? with
        | some w =>
          if w.event.code = .given 0o002_010 then q.dropLast ++ [{ w with repeats := w.repeats + 1 }]
          else q ++ [⟨{ code := .given 0o002_010
                        data := [(e.code.word &&& 0o377_777).toNat, e.index] }, s.clock.sec, s.clock.sub, 0⟩]
        | none => [entry]
    { s with recorder := { s.recorder with queue := q' } }

/-- Record an event whose w12–w13 hold the tick number (R161, R296). -/
def State.event (s : State) (code level index d0 d1 : Nat) : State :=
  s.record { code := .given code, level := level, index := index,
             data := [d0, d1, s.tickNumber % 2 ^ 18, s.tickNumber / 2 ^ 18] }

/-- Record an event of a change made under a role: its w7 holds the role and the fingerprint (R9, R467). -/
def State.eventBy (s : State) (cred : Cred) (code d0 d1 : Nat) : State :=
  s.record { code := .given code, role := cred.role, fp := cred.fp,
             data := [d0, d1, s.tickNumber % 2 ^ 18, s.tickNumber / 2 ^ 18] }

/-- Record an event the spec names without a code. -/
def State.named (s : State) (name : EventName) (level index : Nat) (cred : Cred) (data : List Nat) : State :=
  s.record { code := .named name, level := level, index := index, role := cred.role, fp := cred.fp, data := data }

/-- Record a change made under a role for which the spec names no event of its own: what was changed (a register's index or a
command's CODE), and two words of it (R9, R467). A change made without a role is the device's own and is not told here. -/
def State.changed (s : State) (cred : Cred) (what a b : Nat) : State :=
  if cred.role = 0 then s
  else s.named .changed 0 0 cred [what, a, b, 0]

/-- Record a command's change, with its CODE and first two argument words (R9, R467). -/
def State.changedBy (s : State) (cred : Cred) (q : Req) : State :=
  s.changed cred q.desc.code.toNat q.desc.a0.toNat q.desc.a1.toNat

/-! ## Dirty lines (R73) -/

/-- The number of the 8-word line at a word of tile `t`'s data memory, of its code memory, and of mortar
memory: the regions stand one after another. -/
def dataLine (t : Nat) (a : Nat) : Nat := (2 * t + 4) * 2 ^ 14 + a / 8
/-- Line of a tile code word. -/
def codeLine (t : Nat) (a : Nat) : Nat := (2 * t + 3) * 2 ^ 14 + a / 8
/-- Line of an image or exchange word: AREA 0 input, 1 output, 2 exchange. -/
def mortarLine (area : Nat) (i : Nat) : Nat := area * 2 ^ 14 + i / 8

/-- Mark a line dirty (R73), for the write-behind and for a synchronisation under way (R239). -/
def State.dirty (s : State) (line : Nat) : State :=
  let p := s.persist
  { s with persist := { p with dirty := Tbl.set false p.dirty line true, copyDirty := Tbl.set false p.copyDirty line true } }

/-- Write one word of a tile's data memory and mark its line dirty (R73). -/
def State.writeData (s : State) (t : Nat) (a : Nat) (w : Word) : State :=
  let m := s.mem t
  (s.setMem t { m with data := Tbl.set 0 m.data a w }).dirty (dataLine t a)

/-- Write one word of a tile's code memory and mark its line dirty. -/
def State.writeCode (s : State) (t : Nat) (a : Nat) (w : Word) : State :=
  let m := s.mem t
  (s.setMem t { m with code := Tbl.set 0 m.code a w }).dirty (codeLine t a)

/-! ## Mortar memory (R64–R68) -/

/-- Apply a function to mortar memory. -/
def State.setMortar (s : State) (m : Mortar) : State := { s with work := { s.work with mortar := m } }

/-- Write one word of the input image being built. -/
def State.writeInput (s : State) (i : Nat) (w : Word) : State :=
  let m := s.work.mortar
  (s.setMortar { m with input := Tbl.set 0 m.input i w }).dirty (mortarLine 0 i)

/-- Write consecutive input words. -/
def State.writeInputs (s : State) (i : Nat) : List Word → State
  | [] => s
  | w :: ws => (s.writeInput i w).writeInputs (i + 1) ws

/-- Commit one word: AREA 1 output, 2 exchange. It stands for readers from the next tick (R67). -/
def State.commitWord (s : State) (area i : Nat) (w : Word) : State :=
  let m := s.work.mortar
  if area = 1 then (s.setMortar { m with outNew := Tbl.set none m.outNew i (some w) }).dirty (mortarLine 1 i)
  else if area = 2 then (s.setMortar { m with exchNew := Tbl.set none m.exchNew i (some w) }).dirty (mortarLine 2 i)
  else s

/-- The committed value of an output word, this tick's commits included. -/
def Mortar.outNow (m : Mortar) (i : Nat) : Word := (Tbl.get none m.outNew i).getD (Tbl.get 0 m.out i)

/-- Fold the commits of the tick into the values readers see (R67). -/
def foldCommits (base : Tbl Word) : Tbl (Option Word) → Tbl Word
  | [] => base
  | (i, some w) :: rest => foldCommits (Tbl.set 0 base i w) rest
  | (_, none) :: rest => foldCommits base rest

/-! ## Rights (R464–R466) -/

/-- Role and short fingerprint of a certificate: bits 71:56 of its fingerprint (R459). -/
def certCred (c : Certificate) : Cred := ⟨c.role, c.fp / 2 ^ 56 % 2 ^ 16⟩

/-- The clock's time lies in a certificate's validity period; not checked while OSTOP is 1 (R463). -/
def State.certCurrent (s : State) (c : Certificate) : Bool :=
  s.clock.ostop || (decide (c.notBefore ≤ s.clock.sec) && decide (s.clock.sec ≤ c.notAfter))

/-- The credential of a session, none when it is not open or its validity has ended (R463, R482). -/
def State.sessionCred (s : State) (id : Nat) : Cred :=
  match s.sessions.find? (fun x => x.id == id) with
  | some x => if s.certCurrent x.cert then certCred x.cert else {}
  | none => {}

/-- The credential bound to a ring (R466). -/
def State.ringCred (s : State) (r : Nat) : Cred := Tbl.get {} s.ringCreds r

/-- The credential a descriptor runs under (R466): its ring's binding, its session's, or installer rights
under the program's credential for a tile post. -/
def State.credOf (s : State) (r : Nat) : Origin → Cred
  | .ring _ => s.ringCred r
  | .session id => s.sessionCred id
  | .tile _ _ => s.programCred

/-- The right a descriptor runs with: tile posts have installer rights (R466). -/
def State.rightOf (s : State) (r : Nat) : Origin → Nat
  | .tile _ _ => 2
  | o => (s.credOf r o).role

/-! ## Completions (R276–R280) -/

/-- Raise a doorbell of a master: the host link's MSI-X vector, or a foreman event (R267, R269). -/
def State.doorbell (s : State) (master vector : Nat) : State :=
  if master = 1 then { s with msix := if vector ∈ s.msix then s.msix else s.msix ++ [vector] }
  else if master = 0 then
    { s with foremanEvents := if vector ∈ s.foremanEvents then s.foremanEvents else s.foremanEvents ++ [vector] }
  else s

/-- Statuses of R276. -/
def stDone : Nat := 0
/-- DENIED. -/
def stDenied : Nat := 1
/-- REFUSED. -/
def stRefused : Nat := 2
/-- BUSY. -/
def stBusy : Nat := 3
/-- ABORTED. -/
def stAborted : Nat := 4
/-- NORESP. -/
def stNoresp : Nat := 5
/-- UNREADABLE (R431). -/
def stUnreadable : Nat := 6
/-- ABSENT (R431). -/
def stAbsent : Nat := 7

/-- What a completion says beside its ticket. -/
structure Reply where
  status : Nat := 0
  code : Nat := 0
  detail : Nat := 0
  data : List Word := []
  /-- LEN, when it is not the number of words returned. -/
  len : Option Nat := none

/-- DONE with no data. -/
def Reply.done : Reply := {}
/-- REFUSED with a code. -/
def Reply.refused (code : Nat) : Reply := { status := 2, code := code }
/-- BUSY. -/
def Reply.busy : Reply := { status := 3 }
/-- ABORTED. -/
def Reply.aborted : Reply := { status := 4 }

/-- Drop one ticket from a list. -/
def dropTicket (k : Ticket) (l : List Ticket) : List Ticket := l.erase k

/-- Write a completion to a ring: it takes the next completion slot and signals the owner after it (R268,
R277). A ring without an owner counts it in RG_ORPH (R274). -/
def State.postCompletion (s : State) (r : Nat) (c : Completion) : State :=
  let g := s.ring r
  if g.owner = noOwner then s.setRing r { g with orph := inc18 g.orph }
  else
    (s.setRing r { g with qpi := (g.qpi + 1) % 65536, completions := g.completions ++ [c] }).doorbell g.owner r

/-- Complete a descriptor: exactly one completion, to its ring or session, or counted for a tile post with
every status but DONE recorded (R279, R280, R469). A descriptor already aborted receives no second one. -/
def State.complete (s : State) (k : Ticket) (rep : Reply) : State :=
  let g := s.ring k.ring
  if k ∉ g.flight then s
  else
    let s1 := s.setRing k.ring { g with flight := dropTicket k g.flight }
    let len := rep.len.getD rep.data.length
    match k.origin with
    | .ring slot => s1.postCompletion k.ring ⟨slot, k.tag, rep.status, rep.code, rep.detail, len, rep.data⟩
    | .session id =>
      { s1 with sessionOut := s1.sessionOut ++ [(id, ⟨0, k.tag, rep.status, rep.code, rep.detail, len, rep.data⟩)] }
    | .tile t _ =>
      let g1 := s1.ring k.ring
      if rep.status = 0 then s1.setRing k.ring { g1 with tdone := inc18 g1.tdone }
      else
        (s1.setRing k.ring { g1 with tfail := inc18 g1.tfail }).record
          { code := .given 0o001_303, level := 2, index := t, role := s1.programCred.role, fp := s1.programCred.fp,
            data := [k.ring, t * 256 + rep.status, s1.tickNumber % 2 ^ 18, s1.tickNumber / 2 ^ 18] }

/-- Complete several descriptors alike. -/
def State.completeAll (s : State) (rep : Reply) : List Ticket → State
  | [] => s
  | k :: ks => (s.complete k rep).completeAll rep ks

/-- The engine takes a descriptor for execution: the head of its arrival queue for a ring or tile post, or
a session's descriptor on a ring the foreman owns (R279, R280, R469). A command whose descriptor is not
next does not occur. -/
def State.takeReq (s : State) (r code : Nat) (q : Req) : Option (State × Req) :=
  if q.desc.code.toNat ≠ code then none
  else
    let g := s.ring r
    let k : Ticket := ⟨r, q.origin, q.desc.tag⟩
    match q.origin with
    | .session id =>
      if s.sessions.any (fun x => x.id == id) && decide (g.owner = 0) then
        some (s.setRing r { g with flight := g.flight ++ [k] }, q)
      else none
    | .ring _ =>
      match g.queue with
      | h :: rest =>
        if h.origin = q.origin ∧ h.desc = q.desc then
          some (s.setRing r { g with queue := rest, flight := g.flight ++ [k] }, q)
        else none
      | [] => none
    | .tile _ _ =>
      match g.queue with
      | h :: rest =>
        if h.origin = q.origin ∧ h.desc = q.desc then
          some (s.setRing r { g with queue := rest, flight := g.flight ++ [k] }, h)
        else none
      | [] => none

/-- w10 of a credential event (R481): the ring, or 15 for a session. -/
def originPlace (r : Nat) : Origin → Nat
  | .session _ => 15
  | _ => r

/-- Record a credential event (R481). -/
def State.credEvent (s : State) (code w10 w11 : Nat) (cred : Cred) : State :=
  s.record { code := .given code, role := cred.role, fp := cred.fp,
             data := [w10, w11, s.tickNumber % 2 ^ 18, s.tickNumber / 2 ^ 18] }

/-- Run a ring command: take its descriptor, complete it DENIED without its right (R464), else run its
body with the ticket and the credential. -/
def runCommand (r code right : Nat) (q : Req) (s : State)
    (body : State → Req → Ticket → Cred → State) : State :=
  match s.takeReq r code q with
  | none => s
  | some (s1, q1) =>
    let k : Ticket := ⟨r, q.origin, q.desc.tag⟩
    let cred := s1.credOf r q.origin
    if s1.rightOf r q.origin < right then
      (s1.complete k { status := stDenied }).credEvent 0o002_201 (originPlace r q.origin) 2 cred
    else body s1 q1 k cred

/-- ROLE (MD_MODE): 1 solo, 2 primary, 3 standby, else 0 (R24). -/
def State.role (s : State) : Nat :=
  match s.md.mode with
  | .run => if s.arch.lstate = 5 then 2 else 1
  | .hold => 1
  | .track => 3
  | .takeover => 3
  | _ => 0

/-- The partner holds the lease, as last heard (R241, R243). -/
def State.partnerHolds (s : State) : Bool :=
  s.arch.heard && (match s.arch.peer with
    | some h => h.lstate == 4 || h.lstate == 5 || h.lstate == 6
    | none => false)

/-- A set-up register's written value; `none` when nothing has been written since manufacture. -/
def State.setupAt (s : State) (i : Nat) : Option Word := Tbl.get none s.setup i

/-- A set-up register's value, the value at manufacture when nothing has been written (R510). -/
def State.setupOr (s : State) (i : Nat) (d : Word) : Word := (s.setupAt i).getD d

/-- A set-up register's value as of the last boundary. -/
def State.setupTickOr (s : State) (i : Nat) (d : Word) : Word := (Tbl.get none s.setupTick i).getD d

/-- A set-up register's value as of the last Start. -/
def State.setupStartOr (s : State) (i : Nat) (d : Word) : Word := (Tbl.get none s.setupStart i).getD d

/-- Write a set-up register's stored value. -/
def State.putSetup (s : State) (i : Nat) (w : Word) : State :=
  { s with setup := Tbl.set none s.setup i (some w) }

/-- A ring loses its credential binding (R466). -/
def State.unbind (s : State) (r : Nat) : State :=
  { s with ringCreds := Tbl.set {} s.ringCreds r {}
           identity := { s.identity with bound := Tbl.set none s.identity.bound r none
                                         challenges := Tbl.set none s.identity.challenges r none } }

/-- A reception joins the order of arrival: telegrams (kind 0) and messages (kind 3) have one place each, the newest
(R248, R285, R302). -/
def State.arrive (s : State) (kind i : Nat) : State :=
  let l := if kind = 0 ∨ kind = 3 then s.arch.arrivals.filter (fun x => x != (kind, i)) else s.arch.arrivals
  { s with arch := { s.arch with arrivals := l ++ [(kind, i)] } }

/-- A mailbox message for a tile receiver joins the order of arrival: direction X to Y of channel c as 2c, Y to X as
2c + 1. -/
def State.arriveMail (s : State) (dir receiver : Nat) : State := if 8 ≤ receiver then s.arrive 3 dir else s

/-- Count a refused host-link write in HL_IGN (R505). -/
def State.countIgnored (s : State) (m : Nat) : State :=
  if m = 1 then { s with ignored := inc18 s.ignored } else s

/-- Count an ignored write in HL_IGN whatever its master, where the chapter says so (R274, R284, R290). -/
def State.ignore (s : State) : State := { s with ignored := inc18 s.ignored }

/-- Whether a master reaches the set-up space at all (R504): the foreman, the host link, and the debug port
while it is open. The island reaches its own block, the locks and its own channels only. No master runs in Off and
Backup (R24). -/
def State.reaches (s : State) (m : Nat) : Bool :=
  s.md.mode.powered && (decide (m = 0) || decide (m = 1) || (decide (m = 3) && s.debugOpen.isSome))

/-- Answer one read. -/
def State.answer (s : State) (w : Word) : State := { s with lastRead := [w] }

end Sys2Proof.Machine
end

