-- ==== Sys2Proof/Machine/TileOps.lean ====
section
/-!
DEFINITION. What a tile's bond keeps between retire steps: reads through the store buffer, the signature, effects, and the close
of a window that matches (R144–R149).
-/

namespace Sys2Proof.Machine

/-! ## Reads of tile data memory (R146) -/

/-- The youngest entry of a bank for an address; banks list the youngest store first. -/
def bankFind (a : Addr) : List (Addr × Word) → Option Word
  | [] => none
  | (k, w) :: rest => if k = a then some w else bankFind a rest

/-- A read of tile data memory: the filling bank, then the draining bank, then memory (R146). -/
def Tile.load (x : Tile) (m : TileMem) (a : Addr) : Word :=
  match bankFind a x.filling with
  | some w => w
  | none =>
    match bankFind a x.draining with
    | some w => w
    | none => Tbl.get 0 m.data a.toNat

/-- `n` consecutive data words, addresses advancing modulo 131,072. -/
def Tile.loads (x : Tile) (m : TileMem) (a : Addr) : Nat → List Word
  | 0 => []
  | n + 1 => x.load m a :: x.loads m (a + 1) n

/-! ## The signature (R144, R145) -/

/-- Fold one 36-bit input word into a signature (R144). -/
def foldSig (sig v : Dword) : Dword :=
  let shifted := (sig <<< 1) ^^^ v
  if sig.msb then shifted ^^^ 0o000_000_004_001 else shifted

/-- The input word of a store to tile data memory (R145). -/
def storeItem (a : Addr) (w : Word) : Dword :=
  BitVec.ofNat 36 ((a.toNat / 4) * 2 ^ 18 + (a.toNat % 4 * 2 ^ 16 ^^^ w.toNat))

/-- The input word of a taken branch, call, return, trap entry or RETT (R145). -/
def branchItem (src dst : Addr) : Dword := BitVec.ofNat 36 (2 ^ 34 + src.toNat * 2 ^ 17 + dst.toNat)

/-- The input word of a far load address (R145). -/
def farLoadItem (area index : Nat) : Dword := BitVec.ofNat 36 (2 * 2 ^ 34 + area * 2 ^ 18 + index)

/-- The header of an effect request (R145): kind in bits 33:30, channel, ring or count in bits 29:18, target index in bits
17:0. -/
def effectHeader (kind mid index : Nat) : Dword := BitVec.ofNat 36 (3 * 2 ^ 34 + kind * 2 ^ 30 + mid % 4096 * 2 ^ 18 + index)

/-- Payload words from position `i` (R145): bit 33, the position, the word. -/
def payloadItems (i : Nat) : List Word → List Dword
  | [] => []
  | w :: ws => BitVec.ofNat 36 (2 ^ 33 + i % 2 ^ 15 * 2 ^ 18 + w.toNat) :: payloadItems (i + 1) ws

/-- The input words of an effect request that is one retire step: header and payload (R145). SEND and END fold theirs step by
step. -/
def effectItems : Effect → List Dword
  | .farStore _ index ws => effectHeader 0 0 index :: payloadItems 0 ws
  | .post r ws => effectHeader 2 r 0 :: payloadItems 0 ws
  | .send _ _ | .finish | .doubleTrap _ _ => []

/-! ## Draining (R146) -/

/-- Apply stores, oldest first, to a tile's data memory, marking their lines dirty. -/
def State.applyStores (s : State) (t : Nat) : List (Addr × Word) → State
  | [] => s
  | (a, w) :: rest => (s.writeData t a.toNat w).applyStores t rest

/-- Drain up to `n` stores of the draining bank, oldest first (R146). -/
def State.drain (s : State) (t n : Nat) : State :=
  let x := s.tile t
  let keep := x.draining.length - n
  (s.setTile t { x with draining := x.draining.take keep }).applyStores t (x.draining.drop keep).reverse

/-- Drain the whole bank. -/
def State.drainAll (s : State) (t : Nat) : State := s.drain t (s.tile t).draining.length

/-! ## Effects leaving the bond (R149) -/

/-- Record once per activation that an effect was refused or discarded. -/
def State.markActivation (s : State) (t : Nat) (f : Activation → Activation) : State :=
  let x := s.tile t
  s.setTile t { x with activation := x.activation.map f }

/-- The key of a held word: area × 2^18 + index. -/
def heldKey (area index : Nat) : Nat := area * 2 ^ 18 + index

/-- The last word index of a far area (R120: 32,767 for the images, 8,191 for the exchange area; a reserved
area has no last word given, so every 18-bit index of it stands as it is). -/
def areaLast (area : Nat) : Nat := if area = 2 then 8191 else if area ≤ 1 then 32767 else 2 ^ 18 - 1

/-- An INDEX clamped to its area (R120). -/
def clampIndex (area index : Nat) : Nat := min index (areaLast area)

/-- A far store joins the task's held writes, where a later mismatch leaves it (R152); to the input image or a reserved area it
is discarded and recorded once per activation (R120, R149). -/
def State.releaseFarStore (s : State) (t area index : Nat) (ws : List Word) : State :=
  if area = 1 ∨ area = 2 then
    let x := s.tile t
    let put (i : Nat) (w : Word) (h : Tbl (Option Word)) := Tbl.set none h (heldKey area (clampIndex area i)) (some w)
    let join (h : Tbl (Option Word)) := match ws with
      | [] => h
      | [w] => put index w h
      | w :: w' :: _ => put (index + 1) w' (put index w h)
    s.setTile t { x with held := join x.held, checkpointHeld := join x.checkpointHeld }
  else
    match (s.tile t).activation with
    | some a =>
      if a.farRecorded then s
      else (s.markActivation t fun a => { a with farRecorded := true }).named .farStoreDiscarded 2 t {}
        [a.entry.task, area, index]
    | none => s

/-- A master identity that is not reserved, on a Keystone that runs a number of tiles (R5, R270). -/
def masterKnown (tiles i : Nat) : Bool := decide (i ≤ 4) || (decide (8 ≤ i) && decide (i < 8 + tiles))

/-- Whether a channel is enabled: EN, two different sides, and no reserved identity (R5, R282). -/
def Binding.usable (b : Binding) (tiles : Nat) : Bool :=
  b.en && decide (b.x ≠ b.y) && masterKnown tiles b.x && masterKnown tiles b.y

/-- Set GO in a direction and note a crossing (R284, R287). -/
def sendDirection (d other : Direction) (msg : Tbl Word) : Direction × Direction :=
  let crossed := other.go
  ({ d with go := true, seq := (d.seq + 1) % 512, msg := msg, lastTaken := false, orphan := false,
            crossed := d.crossed || crossed, rclmShow := d.rclm },
   { other with crossed := other.crossed || crossed })

/-- The block of a message as a table of words. -/
def blockOf (ws : List Word) : Tbl Word := Tbl.setMany 0 [] 0 ws

/-- A tile's SEND is refused: counted in MB_REFT and recorded once per activation (R285). -/
def State.refuseSend (s : State) (t ch : Nat) : State :=
  let s1 := { s with refusedSends := inc18 s.refusedSends }
  match (s1.tile t).activation with
  | some a =>
    if a.sendRecorded then s1
    else (s1.markActivation t fun a => { a with sendRecorded := true }).event 0o001_302 2 t ch t
  | none => s1

/-- A tile's SEND leaves the bond (R285): GO is set in the direction in which the tile is the sender. -/
def State.releaseSend (s : State) (t ch : Nat) (ws : List Word) : State :=
  if s.md.mode = .track then { s with trackDiscards := inc18 s.trackDiscards }
  else
    let c := s.channel ch
    if !(c.bind.usable s.tileCount) then s.refuseSend t ch
    else if c.bind.x = t + 8 then
      if c.dirX.go then s.refuseSend t ch
      else
        let (d, o) := sendDirection c.dirX c.dirY (blockOf ws)
        ((s.setChannel ch { c with dirX := d, dirY := o }).doorbell c.bind.y (16 + ch)).arriveMail (2 * ch) c.bind.y
    else if c.bind.y = t + 8 then
      if c.dirY.go then s.refuseSend t ch
      else
        let (d, o) := sendDirection c.dirY c.dirX (blockOf ws)
        ((s.setChannel ch { c with dirY := d, dirX := o }).doorbell c.bind.x (16 + ch)).arriveMail (2 * ch + 1) c.bind.x
    else s.refuseSend t ch

/-- A descriptor from its eight words (R275). -/
def descOf (ws : List Word) : Desc :=
  let w (i : Nat) : Word := ws.getD i 0
  ⟨w 0, w 1, w 2, w 3, w 4, w 5, joinDword (w 6) (w 7)⟩

/-- Data octets of a CAN frame by its A0 word: DLC in bits 11:8, FDF in bit 5, RTR in bit 4 (R333). -/
def canOctets (a0 : Word) : Nat :=
  let dlc := bitsOf a0 11 8
  if bitOf a0 5 then
    match dlc with
    | 9 => 12 | 10 => 16 | 11 => 20 | 12 => 24 | 13 => 32 | 14 => 48 | 15 => 64 | n => n
  else if bitOf a0 4 then 0
  else min dlc 8

/-- Half of a count, rounded up. -/
def halfUp (n : Nat) : Nat := (n + 1) / 2

/-- The words a task-postable command reads from its buffer (R512); none for a command the engine does not
mark as task-postable. `first` is the word at BUF. -/
def postCopy (r : Nat) (d : Desc) (first : Word) : Option Nat :=
  match r, d.code.toNat with
  | 2, 0o000_120 => some (halfUp (canOctets d.a0))
  | 3, 0o000_130 => some (halfUp (max 1 (min 511 d.a1.toNat)))
  | 4, 0o000_171 => some 4
  | 5, 0o000_205 => some 0
  | 8, 0o000_110 => if d.a0 ≠ 0 then none else some (1 + halfUp (max 1 (min 4096 first.toNat)))
  | _, _ => none

/-- A tile post is refused: counted in RG_TFAIL and recorded once per activation (R280). -/
def State.refusePost (s : State) (t r : Nat) : State :=
  let n := if r ≤ 8 then r else 0
  let g := s.ring n
  let s1 := s.setRing n { g with tfail := inc18 g.tfail }
  match (s1.tile t).activation with
  | some a =>
    if a.postRecorded then s1
    else (s1.markActivation t fun a => { a with postRecorded := true }).record
      { code := .given 0o001_303, level := 2, index := t, role := s1.programCred.role, fp := s1.programCred.fp,
        data := [r, t * 256 + 2, s1.tickNumber % 2 ^ 18, s1.tickNumber / 2 ^ 18] }
  | none => s1

/-- Whether a request stands in a ring's arrival queue as a tile post. -/
def Req.isTile (q : Req) : Bool := match q.origin with | .tile _ _ => true | _ => false

/-- A tile's POST leaves the bond (R280, R512): its descriptor joins the engine's arrival queue with the
words it reads, after every store before it has drained. -/
def State.releasePost (s : State) (t r : Nat) (ws : List Word) : State :=
  if s.md.mode = .track then { s with trackDiscards := inc18 s.trackDiscards }
  else if 8 < r then s.refusePost t r
  else
    let d := descOf ws
    let x := s.tile t
    let m := s.mem t
    let at' : Addr := d.buf.truncate 17
    match postCopy r d (x.load m at') with
    | none => s.refusePost t r
    | some n =>
      let g := s.ring r
      if 64 ≤ (g.queue.filter Req.isTile).length then s.refusePost t r
      else s.setRing r { g with queue := g.queue ++ [⟨.tile t ((x.activation.map fun a => a.entry.task).getD 0), d, x.loads m at' n⟩] }

/-- The words of a task's declared write set in the loaded program (R57, R111). -/
def State.writeSetWords (s : State) (task : Nat) : Nat :=
  match s.work.program.tasks.find? fun d => d.task == task with
  | some d => (d.writes.map WordRange.len).foldl (· + ·) 0
  | none => 0

/-- Commit every held write, or hold the set pending in Track (R67, R253). -/
def State.commitAll (s : State) : Tbl (Option Word) → State
  | [] => s
  | (k, w) :: rest => (s.commitWord (k / 2 ^ 18) (k % 2 ^ 18) (w.getD 0)).commitAll rest

/-- Release a lock: a queued tile claim takes it, else it is free (R290, R294). A reclaimed mark stays until a
master acquires the lock by a read (R293, R297). -/
def Lock.release (l : Lock) : Lock :=
  match l.claims with
  | t :: rest => { l with owner := t + 8, claims := rest }
  | [] => { l with owner := noOwner }

/-- At an activation's end the tile's locks are released and its queued claims withdrawn (R294). -/
def Lock.endActivation (t : Nat) (l : Lock) : Lock :=
  let l1 := { l with claims := l.claims.filter (fun c => c != t) }
  if l1.owner = t + 8 then l1.release else l1

/-- Release every lock a tile holds (R294). -/
def State.releaseLocks (s : State) (t : Nat) : State :=
  { s with locks := Tbl.mapEntries {} (fun _ l => Lock.endActivation t l) s.locks }

/-- Complete the STEP or RUN_TILE that runs a tile (R196). -/
def State.finishStepping (s : State) (t : Nat) : State :=
  match s.online.stepping.find? (fun e => e.1 == t) with
  | some e =>
    ({ s with online := { s.online with stepping := s.online.stepping.filter (fun x => x.1 != t) } }).complete
      e.2 .done
  | none => s

/-- The core state once its activation is over: no trap, repetition or instruction is in progress. -/
def Cpu.atEnd (c : Cpu) : Cpu :=
  { c with trapact := false, trapNum := 0, rep := .none, rc := 0, ctPending := none, request := none
           solver := { c.solver with next := none } }

/-- The activation is over: the tile keeps nothing of it, its locks are released (R102, R294). -/
def State.closeActivation (s : State) (t : Nat) : State :=
  let x := s.tile t
  let s1 := s.setTile t { x with activation := none, held := [], effect := none, closeDue := false,
                                 closeWaits := false, cpu := x.cpu.atEnd, checker := x.checker.atEnd }
  (s1.releaseLocks t).finishStepping t

/-- END leaves the bond: the held writes are committed all together, the task's overrun count is reset
(R60, R67, R111). In Track both wait for the ledger (R253). -/
def State.releaseEnd (s : State) (t : Nat) : State :=
  let x := s.tile t
  match x.activation with
  | none => s
  | some a =>
    let s1 :=
      if s.md.mode = .track then
        { s with work := { s.work with pendingSets := s.work.pendingSets ++ [(t, a.entry.task, x.held)] } }
      else s.commitAll x.held
    let s2 := if s.md.mode = .track then s1
      else { s1 with work := { s1.work with overruns := Tbl.set 0 s1.work.overruns a.entry.task 0 } }
    s2.closeActivation t

/-- Raise an error cause of the current tick (R56). -/
def State.raiseCause (s : State) (bit : Nat) : State :=
  { s with work := { s.work with errNow := s.work.errNow ||| word (2 ^ bit) } }

/-- The consequences of a budget overrun (R59–R61): nothing is committed, the event is recorded, error cause
2 is raised, TK_OVR is updated, and the third in a row makes Safe due. -/
def State.overrun (s : State) (t : Nat) (name : EventName) (detail : List Nat) : State :=
  match (s.tile t).activation with
  | none => s
  | some a =>
    let n := min 3 (Tbl.get 0 s.work.overruns a.entry.task + 1)
    let s1 := (s.named name 2 t {}
      ([t, a.entry.task, s.tickNumber % 2 ^ 18, s.tickNumber / 2 ^ 18] ++ detail)).raiseCause 2
    let s2 := { s1 with ovrTile := t, ovrConsec := n, ovrValid := true, ovrTask := a.entry.task,
                        work := { s1.work with overruns := Tbl.set 0 s1.work.overruns a.entry.task n },
                        arch := { s1.arch with overran := s1.arch.overran ++ [(t, a.entry.task, s.tickNumber % 2 ^ 18)] } }
    let s3 := if 3 ≤ n then s2.oweSafe else s2
    s3.closeActivation t

/-- The double trap's consequences are those of an overrun; its event names both trap numbers (R134). -/
def State.releaseEffect (s : State) (t : Nat) : Effect → State
  | .farStore area index ws => s.releaseFarStore t area index ws
  | .send ch ws => s.releaseSend t ch ws
  | .post r ws => s.releasePost t r ws
  | .finish => s.releaseEnd t
  | .doubleTrap a b => s.overrun t .doubleTrap [a, b]

/-! ## The close of a window (R147, R148) -/

/-- The tile stops at its closed window if a stop is due there: the buffer empties, the checkpoint is current, the activation is
open (R162, R193); a breakpoint makes Hold due (R192). -/
def State.stopAtClose (s : State) (t : Nat) : State :=
  match (s.tile t).activation with
  | none => s
  | some a =>
    match a.stopDue with
    | none => s
    | some k =>
      let s0 := s.drainAll t
      let x := s0.tile t
      let brk := decide (k = .brk)
      let s1 := (s0.setTile t { x with
        checkpoint := { x.checkpoint with resumeBrk := brk }
        activation := some { a with opened := true, stopped := true, stopDue := none, stepsLeft := none, resumeBrk := brk } }).finishStepping t
      if k = .step then s1 else { s1 with online := { s1.online with holdDue := true } }

/-- Cycles a close waits for the other bank: what is left of it after the four cycles of the compare, at eight stores a cycle
(R146, R148). -/
def stallCycles (left : Nat) : Nat := (left - 4 * Config.drainRate + (Config.drainRate - 1)) / Config.drainRate

/-- A core after a close's cycles are off the budget counter (R59, R148). -/
def Cpu.pays (c : Cpu) (n : Nat) : Cpu := { c with budget := c.budget - n }

/-- A close that matches: 6 cycles and any wait for the other bank, the checkpoint is written, the filling bank becomes the
draining bank, a new window opens, and the withheld effect leaves (R148, R149). -/
def State.closeMatch (s : State) (t : Nat) : State :=
  let cost := 6 + stallCycles (s.tile t).draining.length
  let s0 := s.drainAll t
  let x := s0.tile t
  let m := s0.mem t
  let cpu := x.cpu.pays cost
  let resume := match x.activation with | some a => a.resumeBrk | none => false
  let s1 := s0.setTile t { x with
    cpu := cpu, checker := x.checker.pays cost
    checkpoint := { cpu := cpu, sblo := m.sblo, sbhi := m.sbhi, resumeBrk := resume }, checkpointHeld := x.held
    filling := [], draining := x.filling, signature := 0, checkSig := 0, windowCycles := 0
    closeDue := false, closeWaits := false, effect := none }
  let s2 := match x.effect with
    | none => s1
    | some e => s1.releaseEffect t e
  s2.stopAtClose t

end Sys2Proof.Machine
end

