-- ==== Sys2Proof/Machine/Revoke.lean ====
section
/-!
DEFINITION. Revocation (R164–R166): a faulty or reset owner loses its locks, mailbox slots, rings and page
grant in the same cycle; and the aborts that a ring reset, a closed session or a revocation makes.
-/

namespace Sys2Proof.Machine

/-- Record that a resource was reclaimed (R161, R166). -/
def State.reclaimed (s : State) (kind index owner : Nat) : State :=
  s.record { code := .given 0o001_103, data := [kind, index, owner, 0] }

/-- Record one reclaimed event per listed index. -/
def State.reclaimedAll (s : State) (kind owner : Nat) : List Nat → State
  | [] => s
  | i :: is => (s.reclaimed kind i owner).reclaimedAll kind owner is

/-- A revoked lock becomes free with the mark; a queued tile claim takes it (R293, R297). -/
def Lock.revoke (id : Nat) (l : Lock) : Lock :=
  if l.owner = id then Lock.release { l with rclm := true, prev := id } else l

/-- Revoke every lock of an owner (R293). -/
def State.revokeLocks (s : State) (id : Nat) : State :=
  let hit := (s.locks.filter fun e => e.2.owner == id).map Prod.fst
  ({ s with locks := Tbl.mapEntries {} (fun _ l => l.revoke id) s.locks }).reclaimedAll 1 id hit

/-- The sender owns the slot: its message is pending and it has not been revoked (R288). -/
def Direction.owned (d : Direction) : Bool := d.go && !d.orphan

/-- A pending message of a revoked sender stays, marked ORPHAN, and its slot is reclaimed (R288). -/
def Direction.revoke (d : Direction) : Direction := if d.owned then { d with orphan := true, rclm := true } else d

/-- The directions of a channel after a sender is revoked. -/
def Channel.revoke (id : Nat) (c : Channel) : Channel :=
  { c with dirX := if c.bind.x = id then c.dirX.revoke else c.dirX
           dirY := if c.bind.y = id then c.dirY.revoke else c.dirY }

/-- Revoke every mailbox slot of an owner (R288). -/
def State.revokeMailboxes (s : State) (id : Nat) : State :=
  let hit := (s.channels.filter fun e =>
    (e.2.bind.x == id && e.2.dirX.owned) || (e.2.bind.y == id && e.2.dirY.owned)).map Prod.fst
  ({ s with channels := Tbl.mapEntries {} (fun _ c => c.revoke id) s.channels }).reclaimedAll 2 id hit

/-- Whether a ticket comes from a ring's own command ring. -/
def Ticket.isRing (k : Ticket) : Bool := match k.origin with | .ring _ => true | _ => false

/-- Whether a page job belongs to a set of tickets. -/
def PageJob.owedTo (j : PageJob) (p : Ticket → Bool) : Bool := match j.ticket with | some k => p k | none => false

/-- Page-store requests under way cannot be stopped in their current page: they are cut there (R279, R417).
The first job's page is under write; requests that have not begun are dropped. -/
def PageStore.cut (ps : PageStore) (p : PageJob → Bool) : PageStore :=
  match ps.jobs with
  | [] => ps
  | j :: rest =>
    let rest' := rest.filter fun x => !p x
    if p j then
      if ps.busy then { ps with jobs := { j with cut := true } :: rest' } else { ps with jobs := rest' }
    else { ps with jobs := j :: rest' }

/-- Only the request that holds the grant is cut, when its owner is revoked (R417). -/
def PageStore.cutHead (ps : PageStore) (p : PageJob → Bool) : PageStore :=
  match ps.jobs with
  | j :: rest => if p j then { ps with jobs := { j with cut := true } :: rest } else ps
  | [] => ps

/-- Withdraw CAN frames (R322): those pending or loaded go, the one on the bus runs to its end of frame. -/
def Can.withdraw (p : Ticket → Bool) (x : Can) : Can :=
  { x with
    pending := x.pending.filter fun f => !p f.ticket
    buffers := Tbl.mapEntries none (fun b f => match f with
      | some y => if p y.ticket then (if x.sending = some b then some { y with aborting := true } else none) else some y
      | none => none) x.buffers }

/-- Withdraw serial transmissions (R332): the running one stops at the next character boundary. -/
def Serial.withdraw (p : Ticket → Bool) (x : Serial) : Serial :=
  { x with pending := x.pending.filter fun t => !p t.ticket
           active := x.active.map fun t => if p t.ticket then { t with aborting := true } else t }

/-- Withdraw a link's acyclic requests (R229). -/
def Link.withdraw (p : Ticket → Bool) (x : Link) : Link :=
  { x with waiting := x.waiting.filter fun r => !p r.ticket
           outstanding := x.outstanding.bind fun r => if p r.ticket then none else some r }

/-- Withdraw the waiting operations of a set of tickets: mode requests, the armed activation, force changes,
stepping. Their aborts are the caller's. -/
def State.withdraw (s : State) (p : Ticket → Bool) : State :=
  let o := s.online
  let armedHit := match o.armed with | some k => p k | none => false
  let tickHit := match o.stepTickTicket with | some k => p k | none => false
  let o1 := { o with
    armed := if armedHit then none else o.armed
    sched := if armedHit then false else o.sched
    staged := if armedHit then o.staged.map fun g => { g with state := 3 } else o.staged
    stepTicks := if tickHit then 0 else o.stepTicks
    stepTickTicket := if tickHit then none else o.stepTickTicket
    stepping := o.stepping.filter fun e => !p e.2
    forceTickets := o.forceTickets.filter fun k => !p k }
  { s with md := { s.md with requests := s.md.requests.filter fun r => !p r.ticket }
           online := o1
           pages := { (s.pages.cut fun j => j.owedTo p) with readers := s.pages.readers.filter fun x => !p x.2 }
           tiles := Tbl.mapEntries {} (fun t x =>
             if o.stepping.any (fun e => e.1 == t && p e.2) then
               { x with activation := x.activation.map fun a => { a with stopped := true, stepsLeft := none } }
             else x) s.tiles
           cans := Tbl.mapEntries {} (fun _ x => Can.withdraw p x) s.cans
           serials := Tbl.mapEntries {} (fun _ x => Serial.withdraw p x) s.serials
           links := Tbl.mapEntries {} (fun _ x => Link.withdraw p x) s.links
           train := { s.train with requests := s.train.requests.filter fun r => !p r.ticket } }

/-- The tickets whose page is under write: they complete ABORTED when it ends (R279, R417). -/
def PageStore.uninterruptible (ps : PageStore) (k : Ticket) : Bool :=
  match ps.jobs with
  | j :: _ => ps.busy && j.ticket == some k
  | [] => false

/-- The tickets of operations that cannot be stopped: a page under write, a CAN frame on the bus, a running serial
transmission; they complete ABORTED when they end (R279, R322, R332, R417). -/
def State.uninterruptible (s : State) (k : Ticket) : Bool :=
  s.pages.uninterruptible k ||
    s.cans.any (fun e => (e.2.sending.bind fun b => Tbl.get none e.2.buffers b).any fun f => f.ticket == k) ||
    s.serials.any fun e => e.2.active.any fun t => t.ticket == k

/-- The completion of an aborted operation: for a CAN frame its buffer and the data words read (R279, R322). -/
def State.abortReply (s : State) (k : Ticket) : Reply :=
  let frames (x : Can) : List (CanTx × Nat) :=
    (x.buffers.filterMap fun e => e.2.map fun f => (f, e.1)) ++ x.pending.map fun f => (f, 0)
  match (s.cans.flatMap fun e => frames e.2).find? fun f => f.1.ticket == k with
  | some (f, b) => { status := stAborted, detail := b, len := some f.words.length }
  | none => .aborted

/-- Descriptors posted on a ring and not fetched (R277). -/
def Ring.unfetched (g : Ring) : Nat := (g.cpi + 65536 - g.cci) % 65536

/-- Revoke a ring: its outstanding completions are counted, not written; it becomes free with the mark, its
credential binding ends (R274, R466). -/
def State.revokeRing (s : State) (r id : Nat) : State :=
  let g := s.ring r
  let mine (k : Ticket) : Bool := k.ring == r && k.isRing
  let out := g.unfetched + (g.queue.filter fun q => !Req.isTile q).length + (g.flight.filter mine).length
  let s1 := s.withdraw mine
  let s2 := s1.setRing r
    { g with en := false, busy := false, rclm := true, owner := noOwner, prev := id, orph := out % 2 ^ 18, cci := g.cpi,
             queue := g.queue.filter Req.isTile, flight := g.flight.filter fun k => !mine k, aborts := 0, disabling := false,
             completions := [] }
  ((s2.unbind r).record
    { code := .given 0o001_301, data := [r, out % 2 ^ 18, id, 0] }).reclaimed 3 r id

/-- Revoke every ring of an owner (R274). -/
def State.revokeRings (s : State) (id : Nat) : List Nat → State
  | [] => s
  | r :: rs => (if (s.ring r).owner = id then s.revokeRing r id else s).revokeRings id rs

/-- Revoke the page-store write grant (R417): the page in progress runs to its end, no later page is written. -/
def State.revokeGrant (s : State) (id : Nat) : State :=
  if s.pages.grant = id ∧ id ≠ noOwner then
    ({ s with pages := { (s.pages.cutHead fun j => j.owner == id) with grantRclm := true, grantPrev := id } }).reclaimed 4 0 id
  else s

/-- A reset of the stager discards the clock's staging and clears HALT without a commit (R441). -/
def State.discardStaging (s : State) (id : Nat) : State :=
  if s.clock.halt ∧ s.clock.stager = id then
    { s with clock := { s.clock with halt := false, stager := noOwner, stagerCred := {}, stSub := none, stTime := none, stDate := none } }
  else s

/-- Revoke every resource an identity holds, in the same cycle (R165, R166). -/
def State.revoke (s : State) (id : Nat) : State :=
  ((((s.revokeLocks id).revokeMailboxes id).revokeRings id (List.range 9)).revokeGrant id).discardStaging id

/-- A tile reset (R165): its activation ends uncommitted and its resources are revoked. -/
def State.tileReset (s : State) (t : Nat) : State :=
  let x := s.tile t
  let s1 := (s.drainAll t).revoke (t + 8)
  let x1 := { (s1.tile t) with activation := none, held := [], filling := [], effect := none, closeDue := false,
                               closeWaits := false, windowCycles := 0, signature := 0, checkSig := 0,
                               cpu := x.cpu.atEnd, checker := x.checker.atEnd }
  ((s1.setTile t x1).releaseLocks t).finishStepping t

/-- Reset every tile of a list. -/
def State.tileResets (s : State) : List Nat → State
  | [] => s
  | t :: ts => (s.tileReset t).tileResets ts

/-- A fault that no bond contains (R20): Safe is due at the next boundary; in an arch the standby takes over. -/
def State.containedFault (s : State) : State := s.oweSafe

end Sys2Proof.Machine
end

