-- ==== Sys2Proof/Machine/Bonds.lean ====
section
/-!
DEFINITION. Bonds, memory errors, the judgement of a window's close, migration, and the bond test (R140–R167).
-/

namespace Sys2Proof.Machine

/-- Bond `p` of a die. -/
def Die.bond (d : Die) (p : Nat) : Bond := Tbl.get {} d.bonds p

/-- Write bond `p` of a die. -/
def Die.setBond (d : Die) (p : Nat) (b : Bond) : Die := { d with bonds := Tbl.set {} d.bonds p b }

/-- The place of a tile on its die (R160). -/
def State.slotOnDie (s : State) (t : Nat) : Nat := t % s.tilesPerDie

/-- The position that runs a tile's slot on a die. -/
def Die.positionOf (d : Die) (slot : Nat) : Option Nat :=
  (List.range 4).find? fun p => decide ((d.bond p).state = .running slot)

/-- The lowest free healthy position of a die (R140, R159). -/
def Die.lowestFree (d : Die) : Option Nat := (List.range 4).find? fun p => decide ((d.bond p).state = .free)

/-! ## Memory errors (R135, R143) -/

/-- A correctable error is counted for a die (R160). -/
def Die.correct (d : Die) (n : Nat) : Die := { d with correctable := (d.correctable + n) % 2 ^ 36 }

/-- A fault of a tile handled under R20: its activation ends uncommitted, the tile is reset, Safe is due (R20,
R135, R165). -/
def State.tileFault (s : State) (t : Nat) : State := (s.tileReset t).containedFault

/-- Trap 3 (R135): the activation ends, an event is recorded, and the fault is handled under R20. -/
def State.memoryFault (s : State) (t : Nat) : State :=
  let task := match (s.tile t).activation with | some a => a.entry.task | none => 0
  (s.named .uncorrectableMemory 2 t {} [t, task, s.tickNumber % 2 ^ 18, s.tickNumber / 2 ^ 18]).tileFault t

/-- A tile reads words (R143): correctable errors among them are corrected in the read and counted for its die; an uncorrectable
one is trap 3, and the answer is false. -/
def State.readPlaces (s : State) (t : Nat) (places : List MemPlace) : State × Bool :=
  if s.upsets.isEmpty then (s, true)
  else
    let hit := s.upsets.filter fun u => places.contains u.place
    let s1 := { s with upsets := s.upsets.filter fun u => !places.contains u.place }
    if hit.all Upset.correctable then (s1.setDie (s.dieOf t) ((s1.die (s.dieOf t)).correct hit.length), true)
    else (s1.memoryFault t, false)

/-! ## Migration (R151–R155) -/

/-- The tile resumes at its checkpoint, on both cores: every store, effect and value of the discarded window is lost; what
drained and what left the bond stays (R151, R152). A step that is executed again is counted again (R167). -/
def State.resumeCheckpoint (s : State) (t : Nat) : State :=
  let s0 := s.drainAll t
  let x := s0.tile t
  let k := x.checkpoint
  let s1 := s0.setMem t { s0.mem t with sblo := k.sblo, sbhi := k.sbhi }
  s1.setTile t { x with
    cpu := k.cpu, checker := k.cpu, held := x.checkpointHeld, filling := [], effect := none, signature := 0, checkSig := 0
    windowCycles := k.cycles, closeDue := false, closeWaits := false
    activation := x.activation.map fun a =>
      { a with stopDue := none, stepsLeft := a.stepsLeft.map fun n => n + 1, resumeBrk := k.resumeBrk } }

/-- A bond that leaves its tile for the test after a mismatch or a failed entry check (R151, R153, R157). -/
def Bond.leave (b : Bond) : Bond := { b with state := .testing, suspect := true }

/-- A signature mismatch (R151–R155): with a reserve bond that passes its entry check the tile migrates, unless its checkpoint
file cannot be read (R167); a failed entry check sends both bonds to the test and the fault to R20. On a die without a reserve
the fault is handled under R20, and the bond's next test follows a mismatch (R157). DESIGN CHOICE: a tile whose bonds both went to
the test after a failed entry check takes no other bond before the next start, and its commands act as before if Run is entered
again. -/
def State.mismatch (s : State) (t : Nat) (entryOk : Bool) : State :=
  let d := s.dieOf t
  let die := s.die d
  let slot := s.slotOnDie t
  match die.reserve, die.positionOf slot with
  | some p, some old =>
    let left := die.setBond old (die.bond old).leave
    if entryOk then
      let s1 := s.setDie d { left.setBond p { (die.bond p) with state := .running slot } with reserve := none }
      let (s2, ok) := s1.readPlaces t [.checkpoint t]
      if ok then
        let x := s2.die d
        ((s2.resumeCheckpoint t).setDie d { x with migrations := (x.migrations + 1) % 2 ^ 36 }).event 0o001_100 1 d t (old * 8 + p)
      else s2
    else (s.setDie d { left.setBond p (die.bond p).leave with reserve := none }).tileFault t
  | none, some old => (s.setDie d (die.setBond old { (die.bond old) with suspect := true })).tileFault t
  | _, none => s.tileFault t

/-! ## The judgement of a close (R147, R148) -/

/-- The two signatures are compared: a mismatch migrates the tile; a match writes the checkpoint and lets the effect leave, or
waits for the other bank to drain. -/
def State.judge (s : State) (t : Nat) (entryOk : Bool) : State :=
  let x := s.tile t
  if x.signature ≠ x.checkSig then s.mismatch t entryOk
  else if stallCycles x.draining.length ≠ 0 then s.setTile t { x with closeWaits := true, closeDue := true }
  else s.closeMatch t

/-- A due close that no command has judged is judged once the next event reaches the tile. -/
def State.settle (s : State) (t : Nat) : State :=
  let x := s.tile t
  if !x.closeDue then s else if x.signature ≠ x.checkSig then s.mismatch t true else s.closeMatch t

/-- One tile's close in a cycle (R148): the faults of its cores, then the compare. -/
def State.closeWindow (s : State) (t : Nat) (c : Compare) : State :=
  let x := s.tile t
  if s.tileCount ≤ t ∨ x.activation.isNone ∨ (!x.closeDue ∧ x.cpu.budget ≠ 0) then s
  else
    (s.setTile t { x with signature := x.signature ^^^ c.main, checkSig := x.checkSig ^^^ c.checker }).judge t c.entryOk

/-- WINDOW_CLOSE (R147, R148): of mismatches known in one cycle the lower tile number takes a die's reserve bond (R154). -/
def execWindowClose (t : Nat) (c : Compare) (others : List (Nat × Compare)) (s : State) : Out :=
  .next ((sortBy Prod.fst ((t, c) :: others)).foldl (fun s e => s.closeWindow e.1 e.2) s)

/-- BANK_DRAIN_END (R148): the other bank has drained, and a close that waited for it proceeds. -/
def execBankDrainEnd (t : Nat) (s : State) : Out :=
  if s.tileCount ≤ t then .next s
  else if (s.tile t).closeWaits then .next (s.closeMatch t) else .next (s.drainAll t)

/-! ## The bond test (R156–R158) -/

/-- The verdict number of a test: 0 neither, 1 main, 2 checker, 3 both (R157, R161). -/
def verdictOf (mainFails checkerFails : Bool) : Nat := flagNat mainFails + 2 * flagNat checkerFails

/-- Transients that still count at an operating time: those not older than 1,000 h (R158). -/
def countedTransients (hours : Nat) (l : List Nat) : List Nat := l.filter fun h => decide (hours ≤ h + 1000)

/-- A bond after its verdict (R157, R158): retired when a core failed or at the third transient within 1,000 h,
else free. -/
def Bond.judged (b : Bond) (verdict hours : Nat) : Bond :=
  if verdict ≠ 0 then { b with state := .retired, cause := verdict, suspect := false }
  else if b.suspect then
    let l := countedTransients hours (b.transients ++ [hours])
    if 3 ≤ l.length then { b with state := .retired, cause := 4, transients := l, suspect := false }
    else { b with state := .free, transients := l, suspect := false }
  else { b with state := .free }

/-- BOND_TEST_VERDICT (R157, R158): the verdict retires the bond or returns it to the pool. -/
def execBondTestVerdict (d p : Nat) (mainFails checkerFails : Bool) (s : State) : Out :=
  let die := s.die d
  let b := die.bond p
  if d = 0 ∨ s.dieCount < d ∨ 3 < p ∨ b.state ≠ .testing then .next s
  else
    let v := verdictOf mainFails checkerFails
    let b1 := b.judged v die.hours
    let s1 := (s.setDie d (die.setBond p b1)).record
      { code := .given 0o001_101, level := 1, index := d, data := [d, v * 8 + p, die.hours % 2 ^ 18, die.hours / 2 ^ 18] }
    if b1.state = .retired then
      .next (s1.record { code := .given 0o001_102, level := 1, index := d,
                         data := [d, b1.cause * 8 + p, die.hours % 2 ^ 18, die.hours / 2 ^ 18] })
    else .next s1

end Sys2Proof.Machine
end

