-- ==== Sys2Proof/Machine/Retire.lean ====
section
/-!
DEFINITION. One retire step of a tile on both cores of its bond: reserved encodings, REP, taking a trap, memory errors (R110,
R126–R135, R141, R147). Every tile instruction is one call of `runInstr` with its own result.
-/

namespace Sys2Proof.Machine

/-! ## Reserved encodings (R110) -/

/-- The highest sub-op, or condition, that each opcode with a sub-op lists (R111–R116). -/
def subLimit (op : Nat) : Option Nat :=
  match op with
  | 0o00 => some 4 | 0o01 => some 8 | 0o02 => some 7 | 0o03 => some 7 | 0o04 => some 4
  | 0o12 => some 2 | 0o14 => some 1 | 0o15 => some 1 | 0o16 => some 3 | 0o17 => some 6
  | 0o20 => some 4 | 0o25 => some 3 | 0o27 => some 3 | 0o34 => some 1 | 0o40 => some 5
  | 0o60 => some 10 | 0o61 => some 4 | 0o62 => some 15 | 0o63 => some 0 | 0o64 => some 0
  | 0o65 => some 1 | 0o66 => some 3
  | _ => none

/-- The sub-op of a word: bits 5:3 in an r use, b in BITOP, else c (R104, R113). -/
def subOf (w : Word) : Nat :=
  let op := bitsOf w 17 12
  if op = 0o02 ∨ op = 0o03 ∨ op = 0o04 ∨ op = 0o14 ∨ op = 0o15 ∨ op = 0o20 then bitsOf w 5 3
  else if op = 0o16 then bitsOf w 8 6
  else bitsOf w 5 0

/-- Whether a field that the tables mark "= 0" is not 0 (R110). -/
def mustBeZero (w w2 : Word) : Bool :=
  let op := bitsOf w 17 12
  let a := bitsOf w 11 9
  let b := bitsOf w 8 6
  let c := bitsOf w 5 0
  let az := decide (a ≠ 0)
  let bz := decide (b ≠ 0)
  match op with
  | 0o00 => (decide (c ≤ 2) && (az || bz))
  | 0o01 => ((decide (c = 1) || decide (c = 3)) && bz) || ((decide (c = 2) || decide (c = 4)) && az)
  | 0o11 | 0o13 | 0o25 | 0o37 | 0o66 => bz
  | 0o34 => az
  | 0o36 => az || bz || decide (c ≠ 0)
  | 0o60 => decide (5 ≤ c) && decide (c ≤ 7) && bz
  | 0o61 => (decide (3 ≤ c) && bz) || decide (bitsOf w2 5 0 ≠ 0)
  | 0o62 | 0o63 | 0o64 => az || bz
  | 0o65 => az
  | _ => false

/-- DETAIL of the reserved-opcode trap (R110, R132): 1 a reserved opcode, 2 a reserved sub-op or condition,
3 a field that must be 0; none for a defined instruction. DESIGN CHOICE: a word at fault in both its sub-op and a field that must be
0 gives 2. -/
def reservedDetail (w w2 : Word) : Option Nat :=
  let op := bitsOf w 17 12
  if op = 0o41 ∨ op = 0o42 ∨ op = 0o43 ∨ (0o50 ≤ op ∧ op ≤ 0o57) ∨ 0o67 ≤ op then some 1
  else
    match subLimit op with
    | some n => if n < subOf w then some 2 else if mustBeZero w w2 then some 3 else none
    | none => if mustBeZero w w2 then some 3 else none

/-! ## One retire step (R126–R135, R147) -/

/-- A word an instruction reads: of tile data memory, of tile code memory, or by a far load (R143). -/
inductive MemRead where
  | data (a : Addr)
  | code (a : Addr)
  | far (area index : Nat)

/-- `n` consecutive words of tile data memory read. -/
def readsData (a : Addr) : Nat → List MemRead
  | 0 => []
  | n + 1 => .data a :: readsData (a + 1) n

/-- `n` consecutive words of tile code memory read. -/
def readsCode (a : Nat) (n : Nat) : List MemRead := (List.range n).map fun i => .code (BitVec.ofNat 17 (a + i))

/-- What one instruction, or one repetition of it, gives: the core state after it without the PC's advance,
its stores in order, a taken branch's target, its cycles, a trap with its DETAIL, an effect request, the
far load addresses it folds, and the words it reads. -/
structure Ret where
  cpu : Cpu
  stores : List (Addr × Word) := []
  jump : Option Addr := none
  cycles : Nat := 1
  trap : Option (Nat × Nat) := none
  /-- The code address an illegal-course trap carries (R98). -/
  trapAddr : Addr := 0
  effect : Option Effect := none
  folds : List Dword := []
  reads : List MemRead := []
  /-- The held writes after a SOLVE's write-back (R95). -/
  held : Option (Tbl (Option Word)) := none
  /-- More retire steps of the instruction follow, and the PC stays (R147). -/
  hold : Bool := false

/-- The instructions no REP may stand before (R127), by their first word. A word with a reserved sub-op, condition or
field is none of them, for it raises the reserved-opcode trap instead. -/
def noPrefix (w : Word) : Bool :=
  let op := bitsOf w 17 12
  let c := bitsOf w 5 0
  decide (0o67 ≤ op) ||
    ((reservedDetail w 0).isNone && ((decide (op = 0) && decide (1 ≤ c) && decide (c ≤ 4)) ||
      (decide (0o30 ≤ op) && decide (op ≤ 0o36)) || (decide (0o62 ≤ op) && decide (op ≤ 0o64))))

/-- Whether a tile runs instructions: it holds an activation that is not stopped, and budget is left. -/
def Tile.running (x : Tile) : Bool :=
  match x.activation with
  | some a => !a.stopped && decide (0 < x.cpu.budget)
  | none => false

/-- Push stores onto the filling bank, youngest first. -/
def pushStores (bank : List (Addr × Word)) : List (Addr × Word) → List (Addr × Word)
  | [] => bank
  | e :: rest => pushStores (e :: bank) rest

/-- Fold a list of input words (R144). -/
def foldAll (sig : Dword) : List Dword → Dword
  | [] => sig
  | v :: vs => foldAll (foldSig sig v) vs

/-- The trap frame f0–f15 (R132). -/
def trapFrame (c : Cpu) (num detail : Nat) (f2 : Addr) (f5 : Nat) (w w2 : Word) : List Word :=
  [word ((if c.rep = .none then 0 else 512) + detail * 8 + num), c.pc.zeroExtend 18, f2.zeroExtend 18,
   c.fl.toWord, c.ct, word f5, w, w2,
   c.reg 0, c.reg 1, c.reg 2, c.reg 3, c.reg 4, c.reg 5, c.reg 6, c.reg 7]

/-- Words paired with consecutive addresses. -/
def storesAt (a : Addr) : List Word → List (Addr × Word)
  | [] => []
  | w :: ws => (a, w) :: storesAt (a + 1) ws

/-- Taking a program-handled trap (R130–R132): the frame is written, TRAPACT is set, g0 receives f0 and g1
f1 (for trap 0 also g2–g6), and PC is the vector. `c` is the state the frame holds, `extra` the cycles of the
instruction itself. -/
def takeTrap (c : Cpu) (num detail : Nat) (w w2 : Word) (extra : Nat) : Ret :=
  let rc := if c.rep = .running then c.rc.toNat else 0
  let next : Addr := c.pc + BitVec.ofNat 17 (lengthOf w)
  let f5 := if num = 4 then rc - 1 else if num = 5 then rc else 0
  let f2 := if num = 1 ∨ num = 5 then c.pc else if num = 4 ∧ 0 < f5 then c.pc else next
  let frame := trapFrame c num detail f2 f5 w w2
  let f0 := frame.getD 0 0
  let f1 := frame.getD 1 0
  let c1 := (c.setReg 0 f0).setReg 1 f1
  let c2 :=
    if num = 0 then
      ((((c1.setReg 2 (c.reg (w.extractLsb' 9 3))).setReg 3 (c.reg (w.extractLsb' 6 3))).setReg 4
        (c.reg (w.extractLsb' 0 3))).setReg 5 w2).setReg 6 (if c.rep = .none then 0 else c.rc)
    else c1
  let vector : Addr := BitVec.ofNat 17 (8 * num)
  { cpu := { c2 with trapact := true, trapNum := num, rep := .none, rc := 0, ctPending := none }
    stores := storesAt 0 frame
    jump := some vector
    cycles := 12 + extra }

/-- A trap under TRAPACT is a double trap: the activation ends at the close (R134). DESIGN CHOICE: it takes no cycle, for no
vector is taken. -/
def trapOrDouble (c : Cpu) (num detail : Nat) (w w2 : Word) (extra : Nat) : Ret :=
  if c.trapact then { cpu := c, cycles := 0, effect := some (.doubleTrap c.trapNum num) }
  else takeTrap c num detail w w2 extra

/-- One repetition's or instruction's outcome with its trap resolved: the frame of trap 4 holds the state
after the instruction, that of the others the state before it (R131). Before trap 2 the cell stores of earlier
courses stand (R98). DESIGN CHOICE: an instruction that raises trap 0, 1 or 5 spends none of its own cycles, for it is not
executed; one that raises trap 4 or 2 spends those it has taken. -/
def resolveTrap (before : Cpu) (w w2 : Word) (r : Ret) : Ret :=
  match r.trap with
  | none => r
  | some (num, detail) =>
    let e :=
      if num = 4 then trapOrDouble r.cpu num detail w w2 r.cycles
      else if num = 2 then
        let e := trapOrDouble { before with solver := r.cpu.solver, trapAddr := r.trapAddr } num detail w w2 r.cycles
        { e with stores := r.stores ++ e.stores }
      else trapOrDouble before num detail w w2 0
    { e with reads := r.reads }

/-- The PC after a retire step that did not trap, outside a REP: it stays while more steps of the instruction follow. -/
def advancePc (w : Word) (r : Ret) : Cpu :=
  if r.hold then r.cpu else { r.cpu with pc := r.jump.getD (r.cpu.pc + BitVec.ofNat 17 (lengthOf w)) }

/-- The REP bookkeeping after one repetition that did not trap: RC counts down, and after the last one CT
takes the value of the last write and the PC passes the target (R126, R128). -/
def advanceRep (w : Word) (c : Cpu) : Cpu :=
  if c.rc.toNat ≤ 1 then
    { c with rep := .none, rc := 0, ct := c.ctPending.getD c.ct, ctPending := none,
             pc := c.pc + BitVec.ofNat 17 (lengthOf w) }
  else { c with rc := c.rc - 1 }

/-- The PC of a trap's result is its vector. -/
def Ret.jumped (r : Ret) : Ret := { r with cpu := { r.cpu with pc := r.jump.getD r.cpu.pc } }

/-- An instruction outside a REP. -/
def stepPlain (w w2 : Word) (c : Cpu) (body : Cpu → Ret) : Ret :=
  let b := body c
  match b.trap with
  | some _ => (resolveTrap c w w2 b).jumped
  | none => { b with cpu := advancePc w b }

/-- One repetition of a REP target (R126). -/
def stepRep (w w2 : Word) (c : Cpu) (body : Cpu → Ret) : Ret :=
  let b := body c
  match b.trap with
  | some _ => (resolveTrap c w w2 b).jumped
  | none => if b.hold then b else { b with cpu := advanceRep w b.cpu }

/-- What the decode of the next instruction makes of a pending REP, and the step itself (R126, R127). A target skipped at
RC 0 costs nothing beyond the one cycle of its REP. -/
def stepRet (w w2 : Word) (c : Cpu) (body : Cpu → Ret) : Ret :=
  match c.rep with
  | .none => stepPlain w w2 c body
  | .armed =>
    if noPrefix w then (trapOrDouble c 1 0 w w2 0).jumped
    else if c.rc = 0 ∧ (reservedDetail w w2).isNone then
      { cpu := { c with rep := .none, pc := c.pc + BitVec.ofNat 17 (lengthOf w) }, cycles := 0 }
    else stepRep w w2 { c with rep := .running } body
  | .running =>
    if noPrefix w then (trapOrDouble c 1 0 w w2 0).jumped
    else stepRep w w2 c body

/-- Whether the retire boundary closes the window (R147). -/
def closes (x : Tile) : Bool :=
  decide (Config.windowCycles ≤ x.windowCycles) || decide (Config.windowStores ≤ x.filling.length) ||
    x.effect.isSome

/-- Count a retire step of a stepped tile; at the close of its last step the tile stops again (R162, R196). -/
def Activation.countStep (a : Activation) : Activation :=
  match a.stepsLeft with
  | none => a
  | some n => { a with stepsLeft := some (n - 1), stopDue := if n ≤ 1 then some .step else a.stopDue }

/-- The input words one core folds for a retire step, from the address it fetched the instruction at (R145). -/
def Ret.items (r : Ret) (pc0 : Addr) : List Dword :=
  let branch := match r.jump with | some d => [branchItem pc0 d] | none => []
  r.stores.map (fun e => storeItem e.1 e.2) ++ branch ++ r.folds ++
    (match r.effect with | some e => effectItems e | none => [])

/-- Whether a tile is stepped, so that its window closes at every step (R162, R196). -/
def Tile.stepped (x : Tile) : Bool := match x.activation with | some a => a.stepsLeft.isSome | none => false

/-- The tile after a retire step that gives `r` on the main core and `rc` on the checker: both cores' states and signatures, the
main core's stores in the filling bank, cycles and budget (R141, R144). -/
def Tile.retire (x : Tile) (r rc : Ret) : Tile :=
  let x1 := { x with cpu := { r.cpu with budget := r.cpu.budget - r.cycles },
                     checker := { rc.cpu with budget := rc.cpu.budget - r.cycles },
                     filling := pushStores x.filling r.stores,
                     signature := foldAll x.signature (r.items x.cpu.pc),
                     checkSig := foldAll x.checkSig (rc.items x.checker.pc),
                     windowCycles := x.windowCycles + r.cycles,
                     held := r.held.getD x.held,
                     effect := r.effect,
                     activation := x.activation.map fun a => { Activation.countStep a with resumeBrk := false } }
  { x1 with closeDue := closes x1 || x.stepped }

/-- The places of memory a retire step reads: its own words, and those its instruction reads and no buffered store forwards
(R143, R146). -/
def Tile.places (x : Tile) (t : Nat) (w : Word) (r : Ret) : List MemPlace :=
  let fetched := (List.range (lengthOf w)).map fun i => MemPlace.code t (x.cpu.pc + BitVec.ofNat 17 i)
  fetched ++ r.reads.filterMap fun
    | .data a => if (bankFind a x.filling).isSome || (bankFind a x.draining).isSome then none else some (.data t a)
    | .code a => some (.code t a)
    | .far area i => if (Tbl.get none x.held (heldKey area i)).isSome then none else some (.mortar area i)

/-- Run one retire step of a tile instruction on both cores: the words it is encoded in, and what it computes from a core's own
state (R141). On a tile that runs no activation nothing happens; an uncorrectable error in a word it reads is trap 3 (R135). -/
def runInstr (t : Nat) (w w2 : Word) (body : State → Tile → Cpu → Ret) (s : State) : State :=
  if s.tileCount ≤ t then s
  else
    let s0 := s.settle t
    let x := s0.tile t
    if !x.running then s0
    else
      let r := stepRet w w2 x.cpu (body s0 x)
      let rc := stepRet w w2 x.checker (body s0 x)
      let (s1, ok) := s0.readPlaces t (x.places t w r)
      if !ok then s1
      else
        let s2 := (s1.setTile t (x.retire r rc)).drain t (Config.drainRate * r.cycles)
        { s2 with fresh := s2.fresh + 1 }

/-- Whether the next retire step of an instruction follows at once: the instruction is part way through, as `mid` says of the
core state, no close is due at the boundary, and the tile runs. -/
def Tile.goesOn (mid : Cpu → Bool) (x : Tile) : Bool := mid x.cpu && x.running && !x.closeDue

/-- Run the retire steps of an instruction that has several (R97, R147, R149) until it is done, its window is to close, or the
tile stops; the same command then takes it up where it stands. Each step takes a cycle or more, so within `n` above
`Config.windowCycles` one of them comes. -/
def runSteps (t : Nat) (w w2 : Word) (mid : Cpu → Bool) (body : State → Tile → Cpu → Ret) : Nat → State → State
  | 0, s => s
  | n + 1, s =>
    let s1 := runInstr t w w2 body s
    if (s1.tile t).goesOn mid then runSteps t w w2 mid body n s1 else s1

/-- A SEND or an END is part way through its payload. -/
def Cpu.asking (c : Cpu) : Bool := c.request.isSome

/-- A SOLVE is part way through its block. -/
def Cpu.solving (c : Cpu) : Bool := c.solver.next.isSome

/-- An instruction on the core state alone. -/
def runCpu (t : Nat) (w w2 : Word) (body : Cpu → Ret) (s : State) : State :=
  runInstr t w w2 (fun _ _ c => body c) s

end Sys2Proof.Machine
end

