-- ==== Sys2Proof/Decode.lean ====
section
/-!
DEFINITION. The decoder over the rows of spec/opcode_table.json that give bits (no row of this block does), and the tile's own
decoder and encoder of instruction words (R104–R116), from the opcode map.
-/

namespace Sys2Proof

open Sys2Proof.Machine

/-- The command that a word of `nbits` bits spells: none, for the table gives no row any bits. -/
def decodeTableWord (_nbits _w : Nat) : Option Instr := none

/-- Opcode 0o00 (R111). -/
def systemWord (t : Nat) (w w2 : Word) : Instr :=
  match subOf w with
  | 0 => .nop t
  | 1 => .end_ t
  | 2 => .ret t
  | 3 => .rett ⟨t, w.extractLsb' 6 6⟩
  | 4 => .brk ⟨t, w.extractLsb' 6 6⟩
  | _ => .reservedOpcodeTrap t w w2

/-- Opcode 0o01 (R111). -/
def moveWord (t : Nat) (w w2 : Word) : Instr :=
  let a : Reg := w.extractLsb' 9 3
  let b : Reg := w.extractLsb' 6 3
  match subOf w with
  | 0 => .mov t a b
  | 1 => .rdfl t a
  | 2 => .wrfl t b
  | 3 => .rdct t a
  | 4 => .wrct t b
  | 5 => .swap t a b
  | 6 => .movd t a b
  | 7 => .not_ t a b
  | 8 => .neg t a b
  | _ => .reservedOpcodeTrap t w w2

/-- Opcode 0o02 (R113). -/
def aluWord (t : Nat) (w w2 : Word) : Instr :=
  let a : Reg := w.extractLsb' 9 3
  let b : Reg := w.extractLsb' 6 3
  let c : Reg := w.extractLsb' 0 3
  match subOf w with
  | 0 => .add t a b c
  | 1 => .adc t a b c
  | 2 => .sub t a b c
  | 3 => .sbc t a b c
  | 4 => .and_ t a b c
  | 5 => .or_ t a b c
  | 6 => .xor_ t a b c
  | 7 => .andn t a b c
  | _ => .reservedOpcodeTrap t w w2

/-- Opcode 0o03 (R113). -/
def satWord (t : Nat) (w w2 : Word) : Instr :=
  let a : Reg := w.extractLsb' 9 3
  let b : Reg := w.extractLsb' 6 3
  let c : Reg := w.extractLsb' 0 3
  match subOf w with
  | 0 => .adds t a b c
  | 1 => .subs t a b c
  | 2 => .addus t a b c
  | 3 => .subus t a b c
  | 4 => .min_ t a b c
  | 5 => .max_ t a b c
  | 6 => .minu t a b c
  | 7 => .maxu t a b c
  | _ => .reservedOpcodeTrap t w w2

/-- Opcode 0o04 (R113). -/
def shiftWord (t : Nat) (w w2 : Word) : Instr :=
  let a : Reg := w.extractLsb' 9 3
  let b : Reg := w.extractLsb' 6 3
  let c : Reg := w.extractLsb' 0 3
  match subOf w with
  | 0 => .shl t a b c
  | 1 => .shr t a b c
  | 2 => .sar t a b c
  | 3 => .rol t a b c
  | 4 => .ror t a b c
  | _ => .reservedOpcodeTrap t w w2

/-- Opcode 0o12 (R113). -/
def compareWord (t : Nat) (w w2 : Word) : Instr :=
  let a : Reg := w.extractLsb' 9 3
  let b : Reg := w.extractLsb' 6 3
  match subOf w with
  | 0 => .cmp t a b
  | 1 => .tst t a b
  | 2 => .cmpd t a b
  | _ => .reservedOpcodeTrap t w w2

/-- Opcodes 0o14 and 0o15 (R113, R114). -/
def mulWord (t : Nat) (w w2 : Word) : Instr :=
  let a : Reg := w.extractLsb' 9 3
  let b : Reg := w.extractLsb' 6 3
  let c : Reg := w.extractLsb' 0 3
  match (bitsOf w 12 12, subOf w) with
  | (0, 0) => .muls t a b c
  | (0, 1) => .mulu t a b c
  | (1, 0) => .divs t a b c
  | (1, 1) => .divu t a b c
  | _ => .reservedOpcodeTrap t w w2

/-- Opcode 0o16 (R113). -/
def bitopWord (t : Nat) (w w2 : Word) : Instr :=
  let a : Reg := w.extractLsb' 9 3
  let n : BitVec 6 := w.extractLsb' 0 6
  match subOf w with
  | 0 => .btst t a n
  | 1 => .bset t a n
  | 2 => .bclr t a n
  | 3 => .binv t a n
  | _ => .reservedOpcodeTrap t w w2

/-- Opcode 0o17 (R124). -/
def countWord (t : Nat) (w w2 : Word) : Instr :=
  let a : Reg := w.extractLsb' 9 3
  let b : Reg := w.extractLsb' 6 3
  match subOf w with
  | 0 => .clz t a b
  | 1 => .ctz t a b
  | 2 => .popc t a b
  | 3 => .brev t a b
  | 4 => .swn t a b
  | 5 => .sxo t a b
  | 6 => .sxn t a b
  | _ => .reservedOpcodeTrap t w w2

/-- Opcode 0o20 (R113). -/
def aludWord (t : Nat) (w w2 : Word) : Instr :=
  let a : Reg := w.extractLsb' 9 3
  let b : Reg := w.extractLsb' 6 3
  let c : Reg := w.extractLsb' 0 3
  match subOf w with
  | 0 => .addd t a b c
  | 1 => .subd t a b c
  | 2 => .andd t a b c
  | 3 => .ord_ t a b c
  | 4 => .xord t a b c
  | _ => .reservedOpcodeTrap t w w2

/-- Opcode 0o25 (R118). -/
def stackWord (t : Nat) (w w2 : Word) : Instr :=
  let a : Reg := w.extractLsb' 9 3
  match subOf w with
  | 0 => .push t a
  | 1 => .pop t a
  | 2 => .pushd t a
  | 3 => .popd t a
  | _ => .reservedOpcodeTrap t w w2

/-- Opcode 0o27 (R119). -/
def nonetWord (t : Nat) (w w2 : Word) : Instr :=
  let a : Reg := w.extractLsb' 9 3
  let b : Reg := w.extractLsb' 6 3
  match subOf w with
  | 0 => .ldn t a b
  | 1 => .stn t a b
  | 2 => .ldni t a b
  | 3 => .stni t a b
  | _ => .reservedOpcodeTrap t w w2

/-- Opcode 0o34 (R111). -/
def jumpWord (t : Nat) (w w2 : Word) : Instr :=
  let b : Reg := w.extractLsb' 6 3
  match subOf w with
  | 0 => .jmp t b
  | 1 => .jsr t b
  | _ => .reservedOpcodeTrap t w w2

/-- Opcode 0o40 (R120). -/
def farWord (t : Nat) (w w2 : Word) : Instr :=
  let a : Reg := w.extractLsb' 9 3
  let b : Reg := w.extractLsb' 6 3
  match subOf w with
  | 0 => .fld t a b
  | 1 => .fst_ t a b
  | 2 => .fldd t a b
  | 3 => .fstd t a b
  | 4 => .fldi t a b
  | 5 => .fsti t a b
  | _ => .reservedOpcodeTrap t w w2

/-- Opcode 0o60 (R116). -/
def aluiWord (t : Nat) (w w2 : Word) : Instr :=
  let a : Reg := w.extractLsb' 9 3
  let b : Reg := w.extractLsb' 6 3
  match subOf w with
  | 0 => .addiImm18 t a b w2
  | 1 => .subi t a b w2
  | 2 => .andi t a b w2
  | 3 => .ori t a b w2
  | 4 => .xori t a b w2
  | 5 => .moviImm18 t a w2
  | 6 => .cmpiImm18 t a w2
  | 7 => .tsti t a w2
  | 8 => .addsi t a b w2
  | 9 => .mini t a b w2
  | 10 => .maxi t a b w2
  | _ => .reservedOpcodeTrap t w w2

/-- Opcode 0o61 (R105, R123). -/
def fieldWord (t : Nat) (w w2 : Word) : Instr :=
  let a : Reg := w.extractLsb' 9 3
  let b : Reg := w.extractLsb' 6 3
  let pos : BitVec 6 := w2.extractLsb' 12 6
  let len : BitVec 6 := w2.extractLsb' 6 6
  match subOf w with
  | 0 => .bfx t a b pos len
  | 1 => .bfxs t a b pos len
  | 2 => .bfi t a b pos len
  | 3 => .bfc t a pos len
  | 4 => .bfs t a pos len
  | _ => .reservedOpcodeTrap t w w2

/-- Opcode 0o65 (R116). -/
def effectWord (t : Nat) (w w2 : Word) : Instr :=
  let b : Reg := w.extractLsb' 6 3
  match subOf w with
  | 0 => .send t b w2
  | 1 => .post t b w2
  | _ => .reservedOpcodeTrap t w w2

/-- Opcode 0o66 (R116). -/
def ldstWord (t : Nat) (w w2 : Word) : Instr :=
  let a : Reg := w.extractLsb' 9 3
  match subOf w with
  | 0 => .lda t a w2
  | 1 => .sta t a w2
  | 2 => .ldda t a w2
  | 3 => .stda t a w2
  | _ => .reservedOpcodeTrap t w w2

/-- The command that the words of an instruction spell on tile `t` (R104, R105, R108, R109): a word that R110 reserves spells the
reserved-opcode trap. -/
def tileCommand (t : Nat) (w w2 : Word) : Instr :=
  let a : Reg := w.extractLsb' 9 3
  let b : Reg := w.extractLsb' 6 3
  let n : BitVec 6 := w.extractLsb' 0 6
  let off : BitVec 12 := w.extractLsb' 0 12
  if (reservedDetail w w2).isSome then .reservedOpcodeTrap t w w2
  else match bitsOf w 17 12 with
  | 0o00 => systemWord t w w2
  | 0o01 => moveWord t w w2
  | 0o02 => aluWord t w w2
  | 0o03 => satWord t w w2
  | 0o04 => shiftWord t w w2
  | 0o05 => .shli t a b n
  | 0o06 => .shri t a b n
  | 0o07 => .sari t a b n
  | 0o10 => .addi t a b n
  | 0o11 => .movi t a n
  | 0o12 => compareWord t w w2
  | 0o13 => .cmpi t a n
  | 0o14 | 0o15 => mulWord t w w2
  | 0o16 => bitopWord t w w2
  | 0o17 => countWord t w w2
  | 0o20 => aludWord t w w2
  | 0o21 => .ld t a b n
  | 0o22 => .st t a b n
  | 0o23 => .ldd t a b n
  | 0o24 => .std t a b n
  | 0o25 => stackWord t w w2
  | 0o26 => .ldc t a b n
  | 0o27 => nonetWord t w w2
  | 0o30 | 0o31 => .br t (w.extractLsb' 9 4) (w.extractLsb' 0 9)
  | 0o32 => .bra t off
  | 0o33 => .bsr t off
  | 0o34 => jumpWord t w w2
  | 0o35 => .loop t off
  | 0o36 => .rep t
  | 0o37 => .rdfeat t a n
  | 0o40 => farWord t w w2
  | 0o44 | 0o45 | 0o46 | 0o47 => .nperm t a b (w.extractLsb' 12 2 ++ n)
  | 0o60 => aluiWord t w w2
  | 0o61 => fieldWord t w w2
  | 0o62 => .jcc t (w.extractLsb' 0 4) w2
  | 0o63 => .calla t w2
  | 0o64 => .solve t w2
  | 0o65 => effectWord t w w2
  | 0o66 => ldstWord t w w2
  | _ => .reservedOpcodeTrap t w w2

/-- The words of a tile instruction (R104, R105, R111–R116), the second 0 for one of one word; none for every other command. -/
def tileWords : Instr → Option (Word × Word)
  | .nop _ => some (header 0 0 0 0, 0)
  | .end_ _ => some (header 0 0 0 1, 0)
  | .ret _ => some (header 0 0 0 2, 0)
  | .rett x => some ((0 : BitVec 6) ++ x.ab ++ (3 : BitVec 6), 0)
  | .brk x => some ((0 : BitVec 6) ++ x.ab ++ (4 : BitVec 6), 0)
  | .mov _ a b => some (header 1 a b 0, 0)
  | .rdfl _ a => some (header 1 a 0 1, 0)
  | .wrfl _ b => some (header 1 0 b 2, 0)
  | .rdct _ a => some (header 1 a 0 3, 0)
  | .wrct _ b => some (header 1 0 b 4, 0)
  | .swap _ a b => some (header 1 a b 5, 0)
  | .movd _ a b => some (header 1 a b 6, 0)
  | .not_ _ a b => some (header 1 a b 7, 0)
  | .neg _ a b => some (header 1 a b 8, 0)
  | .add _ a b c => some (header 2 a b (rField 0 c), 0)
  | .adc _ a b c => some (header 2 a b (rField 1 c), 0)
  | .sub _ a b c => some (header 2 a b (rField 2 c), 0)
  | .sbc _ a b c => some (header 2 a b (rField 3 c), 0)
  | .and_ _ a b c => some (header 2 a b (rField 4 c), 0)
  | .or_ _ a b c => some (header 2 a b (rField 5 c), 0)
  | .xor_ _ a b c => some (header 2 a b (rField 6 c), 0)
  | .andn _ a b c => some (header 2 a b (rField 7 c), 0)
  | .adds _ a b c => some (header 3 a b (rField 0 c), 0)
  | .subs _ a b c => some (header 3 a b (rField 1 c), 0)
  | .addus _ a b c => some (header 3 a b (rField 2 c), 0)
  | .subus _ a b c => some (header 3 a b (rField 3 c), 0)
  | .min_ _ a b c => some (header 3 a b (rField 4 c), 0)
  | .max_ _ a b c => some (header 3 a b (rField 5 c), 0)
  | .minu _ a b c => some (header 3 a b (rField 6 c), 0)
  | .maxu _ a b c => some (header 3 a b (rField 7 c), 0)
  | .shl _ a b c => some (header 4 a b (rField 0 c), 0)
  | .shr _ a b c => some (header 4 a b (rField 1 c), 0)
  | .sar _ a b c => some (header 4 a b (rField 2 c), 0)
  | .rol _ a b c => some (header 4 a b (rField 3 c), 0)
  | .ror _ a b c => some (header 4 a b (rField 4 c), 0)
  | .shli _ a b n => some (header 5 a b n, 0)
  | .shri _ a b n => some (header 6 a b n, 0)
  | .sari _ a b n => some (header 7 a b n, 0)
  | .addi _ a b n => some (header 0o10 a b n, 0)
  | .movi _ a n => some (header 0o11 a 0 n, 0)
  | .cmp _ a b => some (header 0o12 a b 0, 0)
  | .tst _ a b => some (header 0o12 a b 1, 0)
  | .cmpd _ a b => some (header 0o12 a b 2, 0)
  | .cmpi _ a n => some (header 0o13 a 0 n, 0)
  | .muls _ a b c => some (header 0o14 a b (rField 0 c), 0)
  | .mulu _ a b c => some (header 0o14 a b (rField 1 c), 0)
  | .divs _ a b c => some (header 0o15 a b (rField 0 c), 0)
  | .divu _ a b c => some (header 0o15 a b (rField 1 c), 0)
  | .btst _ a n => some (header 0o16 a 0 n, 0)
  | .bset _ a n => some (header 0o16 a 1 n, 0)
  | .bclr _ a n => some (header 0o16 a 2 n, 0)
  | .binv _ a n => some (header 0o16 a 3 n, 0)
  | .clz _ a b => some (header 0o17 a b 0, 0)
  | .ctz _ a b => some (header 0o17 a b 1, 0)
  | .popc _ a b => some (header 0o17 a b 2, 0)
  | .brev _ a b => some (header 0o17 a b 3, 0)
  | .swn _ a b => some (header 0o17 a b 4, 0)
  | .sxo _ a b => some (header 0o17 a b 5, 0)
  | .sxn _ a b => some (header 0o17 a b 6, 0)
  | .addd _ a b c => some (header 0o20 a b (rField 0 c), 0)
  | .subd _ a b c => some (header 0o20 a b (rField 1 c), 0)
  | .andd _ a b c => some (header 0o20 a b (rField 2 c), 0)
  | .ord_ _ a b c => some (header 0o20 a b (rField 3 c), 0)
  | .xord _ a b c => some (header 0o20 a b (rField 4 c), 0)
  | .ld _ a b n => some (header 0o21 a b n, 0)
  | .st _ a b n => some (header 0o22 a b n, 0)
  | .ldd _ a b n => some (header 0o23 a b n, 0)
  | .std _ a b n => some (header 0o24 a b n, 0)
  | .ldc _ a b n => some (header 0o26 a b n, 0)
  | .push _ a => some (header 0o25 a 0 0, 0)
  | .pop _ a => some (header 0o25 a 0 1, 0)
  | .pushd _ a => some (header 0o25 a 0 2, 0)
  | .popd _ a => some (header 0o25 a 0 3, 0)
  | .ldn _ a b => some (header 0o27 a b 0, 0)
  | .stn _ a b => some (header 0o27 a b 1, 0)
  | .ldni _ a b => some (header 0o27 a b 2, 0)
  | .stni _ a b => some (header 0o27 a b 3, 0)
  | .br _ cc off => some ((0b01100 : BitVec 5) ++ cc ++ off, 0)
  | .bra _ off => some ((0o32 : BitVec 6) ++ off, 0)
  | .bsr _ off => some ((0o33 : BitVec 6) ++ off, 0)
  | .loop _ off => some ((0o35 : BitVec 6) ++ off, 0)
  | .jmp _ b => some (header 0o34 0 b 0, 0)
  | .jsr _ b => some (header 0o34 0 b 1, 0)
  | .rep _ => some (header 0o36 0 0 0, 0)
  | .rdfeat _ a n => some (header 0o37 a 0 n, 0)
  | .fld _ a b => some (header 0o40 a b 0, 0)
  | .fst_ _ a b => some (header 0o40 a b 1, 0)
  | .fldd _ a b => some (header 0o40 a b 2, 0)
  | .fstd _ a b => some (header 0o40 a b 3, 0)
  | .fldi _ a b => some (header 0o40 a b 4, 0)
  | .fsti _ a b => some (header 0o40 a b 5, 0)
  | .nperm _ a b sel => some ((0b1001 : BitVec 4) ++ sel.extractLsb' 6 2 ++ a ++ b ++ sel.extractLsb' 0 6, 0)
  | .addiImm18 _ a b v => some (header 0o60 a b 0, v)
  | .subi _ a b v => some (header 0o60 a b 1, v)
  | .andi _ a b v => some (header 0o60 a b 2, v)
  | .ori _ a b v => some (header 0o60 a b 3, v)
  | .xori _ a b v => some (header 0o60 a b 4, v)
  | .moviImm18 _ a v => some (header 0o60 a 0 5, v)
  | .cmpiImm18 _ a v => some (header 0o60 a 0 6, v)
  | .tsti _ a v => some (header 0o60 a 0 7, v)
  | .addsi _ a b v => some (header 0o60 a b 8, v)
  | .mini _ a b v => some (header 0o60 a b 9, v)
  | .maxi _ a b v => some (header 0o60 a b 10, v)
  | .bfx _ a b pos len => some (header 0o61 a b 0, bfWord pos len)
  | .bfxs _ a b pos len => some (header 0o61 a b 1, bfWord pos len)
  | .bfi _ a b pos len => some (header 0o61 a b 2, bfWord pos len)
  | .bfc _ a pos len => some (header 0o61 a 0 3, bfWord pos len)
  | .bfs _ a pos len => some (header 0o61 a 0 4, bfWord pos len)
  | .jcc _ cc v => some (header 0o62 0 0 (0#2 ++ cc), v)
  | .calla _ v => some (header 0o63 0 0 0, v)
  | .solve _ v => some (header 0o64 0 0 0, v)
  | .send _ b v => some (header 0o65 0 b 0, v)
  | .post _ b v => some (header 0o65 0 b 1, v)
  | .lda _ a v => some (header 0o66 a 0 0, v)
  | .sta _ a v => some (header 0o66 a 0 1, v)
  | .ldda _ a v => some (header 0o66 a 0 2, v)
  | .stda _ a v => some (header 0o66 a 0 3, v)
  | .reservedOpcodeTrap _ w w2 => if (reservedDetail w w2).isSome then some (w, w2) else none
  | _ => none

end Sys2Proof
end

