-- ==== Sys2Proof/Machine/TileSystem.lean ====
section
/-!
DEFINITION. The system, move and control instructions of R111, with REP and LOOP (R126–R129), RETT (R133),
BRK (R135, R192, R193) and RDFEAT (R137).
-/

namespace Sys2Proof.Machine

/-! ## The stack (R118) -/

/-- The trap of an access to `n` words below g7, if it leaves the stack range (R118). -/
def pushTrap (c : Cpu) (m : TileMem) (n : Nat) : Option (Nat × Nat) :=
  let sp := (c.reg 7).toNat
  if sp < m.sblo.toNat + n then some (5, 0)
  else if m.sbhi.toNat + 1 < sp then some (5, 1)
  else none

/-- The trap of an access to `n` words from g7 up, if it leaves the stack range (R118). -/
def popTrap (c : Cpu) (m : TileMem) (n : Nat) : Option (Nat × Nat) :=
  let sp := (c.reg 7).toNat
  if sp < m.sblo.toNat then some (5, 0)
  else if m.sbhi.toNat + 1 < sp + n then some (5, 1)
  else none

/-- Move g7 by a number of words. -/
def Cpu.moveSp (c : Cpu) (d : Word) : Cpu := c.setReg 7 (c.reg 7 + d)

/-- The address g7 names, offset by a number of words. -/
def Cpu.spAddr (c : Cpu) (d : Word) : Addr := addrOf (c.reg 7 + d)

/-- A call: push the return address with bit 17 = 0, then branch (R118). -/
def callRet (m : TileMem) (c : Cpu) (ret target : Addr) : Ret :=
  match pushTrap c m 1 with
  | some tr => { cpu := c, trap := some tr }
  | none =>
    { cpu := c.moveSp (-1), stores := [(c.spAddr (-1), ret.zeroExtend 18)], jump := some target, cycles := 2 }

/-! ## Meanings -/

/-- NOP (R111). -/
def execNop (t : Nat) (s : State) : Out := .next (runCpu t 0 0 (fun c => { cpu := c }) s)

/-- One retire step of END (R57, R111, R145, R147): 8 cycles and the header first, then one step for each run of up to 16 words
of the declared write set, one cycle each, which folds the held words in index order; the commit is an effect (R149). -/
def endRet (m : Nat) (x : Tile) (c : Cpu) : Ret :=
  let words := x.held.map fun e => e.2.getD 0
  match c.request with
  | none =>
    if m = 0 then { cpu := c, cycles := 8, folds := effectHeader 3 m 0 :: payloadItems 0 words, effect := some .finish }
    else { cpu := { c with request := some 0 }, cycles := 8, folds := [effectHeader 3 m 0], hold := true }
  | some k =>
    if k + 16 < m then
      { cpu := { c with request := some (k + 16) }, cycles := 16, folds := payloadItems k ((words.drop k).take 16), hold := true }
    else
      { cpu := { c with request := none }, cycles := m - k, folds := payloadItems k (words.drop k), effect := some .finish }

/-- END (R57, R111, R147). -/
def execEnd (t : Nat) (s : State) : Out :=
  .next (runSteps t 0o000_001 0 Cpu.asking (fun s x c =>
    endRet (s.writeSetWords ((x.activation.map fun a => a.entry.task).getD 0)) x c) (Config.windowCycles + 1) s)

/-- RET (R111, R118): PC = pop. -/
def execRet (t : Nat) (s : State) : Out :=
  .next (runInstr t 0o000_002 0 (fun s x c =>
    match popTrap c (s.mem t) 1 with
    | some tr => { cpu := c, trap := some tr }
    | none =>
      { cpu := c.moveSp 1, jump := some (addrOf (x.load (s.mem t) (c.spAddr 0))), cycles := 2, reads := [.data (c.spAddr 0)] }) s)

/-- The core state RETT restores from the frame (R133). -/
def rettCpu (load : Nat → Word) (c : Cpu) : Cpu :=
  let c1 := ((((((((c.setReg 0 (load 8)).setReg 1 (load 9)).setReg 2 (load 10)).setReg 3 (load 11)).setReg 4
    (load 12)).setReg 5 (load 13)).setReg 6 (load 14)).setReg 7 (load 15))
  let c2 := { c1 with fl := Flags.ofWord (load 3), ct := load 4, trapact := false }
  if load 5 = 0 then c2 else { c2 with rep := .running, rc := load 5, ctPending := none }

/-- The word itself, of a sub-op (R104, R111). -/
def bareWord (w : BareWord) (sub : BitVec 6) : Word := (0 : BitVec 6) ++ w.ab ++ sub

/-- RETT (R133): return from trap through the frame; f5 > 0 resumes the repetitions at f2. -/
def execRett (w : BareWord) (s : State) : Out :=
  .next (runInstr w.tile (bareWord w 3) 0 (fun s x c =>
    let load (i : Nat) : Word := x.load (s.mem w.tile) (BitVec.ofNat 17 i)
    { cpu := rettCpu load c, jump := some (addrOf (load 2)), cycles := 10, reads := readsData 2 4 ++ readsData 8 8 }) s)

/-- RUN_TILE is under way on a tile (R196). -/
def State.runsTile (s : State) (t : Nat) : Bool :=
  s.online.stepping.any (fun e => e.1 == t) &&
    (match (s.tile t).activation with | some a => a.stepsLeft.isNone | none => false)

/-- Whether BRK and the debug breakpoints stop a tile now: in Run with ROLE 1, in a tick run by STEP_TICK (R192), or under
RUN_TILE, which a breakpoint ends (R196). -/
def State.breakable (s : State) (t : Nat) : Bool :=
  (decide (s.md.mode = .run) && decide (s.role = 1)) || (decide (s.md.mode = .hold) && (s.md.tasksRun || s.runsTile t))

/-- A breakpoint stop before the next instruction: the window closes there, and the tile stops when that close matches
(R162, R167, R193). -/
def State.breakStop (s : State) (t : Nat) (k : StopKind) : State :=
  let x := s.tile t
  s.setTile t { x with closeDue := true, activation := x.activation.map fun a => { a with stopDue := some k } }

/-- HD_CFG.BRKEN (R197): the value in effect. -/
def State.brkEnabled (s : State) : Bool := bitOf (s.setupTickOr 0o000_420 0o000_001) 1

/-- BRK (R135, R192, R193): stops the tile while breakpoints are armed, otherwise acts as NOP. -/
def execBrk (w : BareWord) (s : State) : Out :=
  let t := w.tile
  let s0 := s.settle t
  let resume := match (s0.tile t).activation with | some a => a.resumeBrk | none => false
  if (s0.tile t).running && s0.brkEnabled && s0.breakable t && !resume && decide ((s0.tile t).cpu.rep = .none) then
    .next (s0.breakStop t .brk)
  else .next (runCpu t (bareWord w 4) 0 (fun c => { cpu := c }) s)

/-- MOV ga, gb (R111). -/
def execMov (t : Nat) (a b : Reg) (s : State) : Out :=
  .next (runCpu t (header 1 a b 0) 0 (fun c => { cpu := c.setReg a (c.reg b) }) s)

/-- RDFL ga (R111). -/
def execRdfl (t : Nat) (a : Reg) (s : State) : Out :=
  .next (runCpu t (header 1 a 0 1) 0 (fun c => { cpu := c.setReg a c.fl.toWord }) s)

/-- WRFL gb (R111): bits 17:5 ignore writes (R103). -/
def execWrfl (t : Nat) (b : Reg) (s : State) : Out :=
  .next (runCpu t (header 1 0 b 2) 0 (fun c => { cpu := c.setFlags (Flags.ofWord (c.reg b)) }) s)

/-- RDCT ga (R111): under REP it returns the latched value (R128). -/
def execRdct (t : Nat) (a : Reg) (s : State) : Out :=
  .next (runCpu t (header 1 a 0 3) 0 (fun c => { cpu := c.setReg a c.ct }) s)

/-- The core after a write to CT: pending while a target repeats (R128). -/
def Cpu.writeCt (c : Cpu) (w : Word) : Cpu :=
  if c.rep = .running then { c with ctPending := some w } else { c with ct := w }

/-- WRCT gb (R111, R128). -/
def execWrct (t : Nat) (b : Reg) (s : State) : Out :=
  .next (runCpu t (header 1 0 b 4) 0 (fun c => { cpu := c.writeCt (c.reg b) }) s)

/-- SWAP ga, gb (R111). -/
def execSwap (t : Nat) (a b : Reg) (s : State) : Out :=
  .next (runCpu t (header 1 a b 5) 0 (fun c => { cpu := (c.setReg a (c.reg b)).setReg b (c.reg a) }) s)

/-- MOVD da, db (R111). -/
def execMovd (t : Nat) (a b : Reg) (s : State) : Out :=
  .next (runCpu t (header 1 a b 6) 0 (fun c => { cpu := c.setPair a (c.pair b) }) s)

/-- The core after a result in ga with Z and N. -/
def Cpu.resultZn (c : Cpu) (a : Reg) (r : Word) : Cpu := (c.setReg a r).setFlags (c.fl.zn r)

/-- The core after a result in ga with Z, N, C and V. -/
def Cpu.resultZncv (c : Cpu) (a : Reg) (r : AluResult 18) : Cpu := (c.setReg a r.value).setFlags (c.fl.zncv r)

/-- NOT ga, gb (R111). -/
def execNot (t : Nat) (a b : Reg) (s : State) : Out :=
  .next (runCpu t (header 1 a b 7) 0 (fun c => { cpu := c.resultZn a (~~~ c.reg b) }) s)

/-- NEG ga, gb (R111): 0 − gb. -/
def execNeg (t : Nat) (a b : Reg) (s : State) : Out :=
  .next (runCpu t (header 1 a b 8) 0 (fun c => { cpu := c.resultZncv a (subWith 0 (c.reg b) false) }) s)

/-- MOVI ga, simm6 (R111). -/
def execMovi (t : Nat) (a : Reg) (imm : BitVec 6) (s : State) : Out :=
  .next (runCpu t (header 0o11 a 0 imm) 0 (fun c => { cpu := c.setReg a (simm6 imm) }) s)

/-- The header word of BR: cc is bit 0 of op followed by a; the offset is b and c (R104, R111). -/
def brWord (cc : BitVec 4) (off : BitVec 9) : Word :=
  (0b01100#5 ++ cc) ++ off

/-- A header word with a signed 12-bit offset in a, b and c (R104). -/
def offWord (op : Nat) (off : BitVec 12) : Word := BitVec.ofNat 6 op ++ off

/-- BR cc, off9 (R111, R112): 2 cycles if taken, 1 if not. -/
def execBr (t : Nat) (cc : BitVec 4) (off : BitVec 9) (s : State) : Out :=
  .next (runCpu t (brWord cc off) 0 (fun c =>
    if c.fl.holds cc then { cpu := c, jump := some (relTarget c.pc off), cycles := 2 } else { cpu := c }) s)

/-- BRA off12 (R111). -/
def execBra (t : Nat) (off : BitVec 12) (s : State) : Out :=
  .next (runCpu t (offWord 0o32 off) 0 (fun c => { cpu := c, jump := some (relTarget c.pc off), cycles := 2 }) s)

/-- BSR off12 (R111): push PC + 1, then branch. -/
def execBsr (t : Nat) (off : BitVec 12) (s : State) : Out :=
  .next (runInstr t (offWord 0o33 off) 0 (fun s _ c => callRet (s.mem t) c (c.pc + 1) (relTarget c.pc off)) s)

/-- JMP gb (R111). -/
def execJmp (t : Nat) (b : Reg) (s : State) : Out :=
  .next (runCpu t (header 0o34 0 b 0) 0 (fun c => { cpu := c, jump := some (addrOf (c.reg b)), cycles := 2 }) s)

/-- JSR gb (R111): push PC + 1, then PC = gb. -/
def execJsr (t : Nat) (b : Reg) (s : State) : Out :=
  .next (runInstr t (header 0o34 0 b 1) 0 (fun s _ c => callRet (s.mem t) c (c.pc + 1) (addrOf (c.reg b))) s)

/-- LOOP off12 (R129). -/
def execLoop (t : Nat) (off : BitVec 12) (s : State) : Out :=
  .next (runCpu t (offWord 0o35 off) 0 (fun c =>
    if c.ct = 0 then { cpu := c }
    else if c.ct - 1 = 0 then { cpu := { c with ct := c.ct - 1 } }
    else { cpu := { c with ct := c.ct - 1 }, jump := some (relTarget c.pc off), cycles := 2 }) s)

/-- REP (R126): CT is copied into RC at the decode; the next instruction is the target. -/
def execRep (t : Nat) (s : State) : Out :=
  .next (runCpu t 0o360_000 0 (fun c => { cpu := { c with rep := .armed, rc := c.ct, ctPending := none } }) s)

/-- The tile feature registers (R137). -/
def tileFeature (t : Nat) (m : TileMem) (n : Nat) : Word :=
  match n with
  | 0 => word (1 * 64 + 1)
  | 1 => 0o000_177
  | 2 => word ((t + 8) * 32 + t)
  | 3 => 0o000_200
  | 4 => 0o000_200
  | 5 => m.sblo.zeroExtend 18
  | 6 => m.sbhi.zeroExtend 18
  | 7 => 0o000_620
  | _ => 0

/-- RDFEAT ga, n (R137). -/
def execRdfeat (t : Nat) (a : Reg) (n : BitVec 6) (s : State) : Out :=
  .next (runInstr t (header 0o37 a 0 n) 0 (fun s _ c => { cpu := c.setReg a (tileFeature t (s.mem t) n.toNat) }) s)

end Sys2Proof.Machine
end

