-- ==== Sys2Proof/Machine/TileArith.lean ====
section
/-!
DEFINITION. The arithmetic, logic, shift, divide, bit, count and pair instructions (R113, R114, R123–R125)
and their immediate forms (R116).
-/

namespace Sys2Proof.Machine

/-- The core after a saturating result in ga (R103, R113). -/
def Cpu.resultSat (c : Cpu) (a : Reg) (r : SatResult) : Cpu :=
  (c.setReg a r.value).setFlags (c.fl.znvs r.value r.sat)

/-- The core after a shift of gb by a count in ga (R113). -/
def Cpu.shifted (c : Cpu) (k : ShiftKind) (a b : Reg) (count : Nat) : Cpu :=
  let n := clampCount count
  let r := shiftValue k (c.reg b) n
  (c.setReg a r).setFlags (c.fl.znc r (shiftCarry k (c.reg b) n))

/-- The core after a divide (R114): quotient to the even register of da, remainder to the odd one. -/
def Cpu.divided (c : Cpu) (a : Reg) (r : DivResult) : Cpu :=
  ((c.setReg (evenReg a) r.quotient).setReg (oddReg a) r.remainder).setFlags (c.fl.divided r)

/-- The core after a pair result with Z and N. -/
def Cpu.pairZn (c : Cpu) (a : Reg) (r : Dword) : Cpu := (c.setPair a r).setFlags (c.fl.zn r)

/-- The core after a pair result with Z, N, C and V. -/
def Cpu.pairZncv (c : Cpu) (a : Reg) (r : AluResult 36) : Cpu := (c.setPair a r.value).setFlags (c.fl.zncv r)

/-- The core after a bit operation: Z = not the old bit (R113). -/
def Cpu.bitDone (c : Cpu) (a : Reg) (n : BitVec 6) (f : Word → Word → Word) : Cpu :=
  let i := clampCount n.toNat
  let old := c.reg a
  (c.setReg a (f old (word (2 ^ i)))).setFlags { c.fl with z := !old.getLsbD i }

/-- ADD ga, gb, gc (R113). -/
def execAdd (t : Nat) (a b c : Reg) (s : State) : Out :=
  .next (runCpu t (header 2 a b (rField 0 c)) 0 (fun u => { cpu := u.resultZncv a (addWith (u.reg b) (u.reg c) false) }) s)

/-- ADC ga, gb, gc (R113: gb + gc + C). -/
def execAdc (t : Nat) (a b c : Reg) (s : State) : Out :=
  .next (runCpu t (header 2 a b (rField 1 c)) 0 (fun u => { cpu := u.resultZncv a (addWith (u.reg b) (u.reg c) u.fl.c) }) s)

/-- SUB ga, gb, gc (R113). -/
def execSub (t : Nat) (a b c : Reg) (s : State) : Out :=
  .next (runCpu t (header 2 a b (rField 2 c)) 0 (fun u => { cpu := u.resultZncv a (subWith (u.reg b) (u.reg c) false) }) s)

/-- SBC ga, gb, gc (R113: gb − gc − C). -/
def execSbc (t : Nat) (a b c : Reg) (s : State) : Out :=
  .next (runCpu t (header 2 a b (rField 3 c)) 0 (fun u => { cpu := u.resultZncv a (subWith (u.reg b) (u.reg c) u.fl.c) }) s)

/-- AND ga, gb, gc (R113). -/
def execAnd (t : Nat) (a b c : Reg) (s : State) : Out :=
  .next (runCpu t (header 2 a b (rField 4 c)) 0 (fun u => { cpu := u.resultZn a ((u.reg b) &&& (u.reg c)) }) s)

/-- OR ga, gb, gc (R113). -/
def execOr (t : Nat) (a b c : Reg) (s : State) : Out :=
  .next (runCpu t (header 2 a b (rField 5 c)) 0 (fun u => { cpu := u.resultZn a ((u.reg b) ||| (u.reg c)) }) s)

/-- XOR ga, gb, gc (R113). -/
def execXor (t : Nat) (a b c : Reg) (s : State) : Out :=
  .next (runCpu t (header 2 a b (rField 6 c)) 0 (fun u => { cpu := u.resultZn a ((u.reg b) ^^^ (u.reg c)) }) s)

/-- ANDN ga, gb, gc (R113). -/
def execAndn (t : Nat) (a b c : Reg) (s : State) : Out :=
  .next (runCpu t (header 2 a b (rField 7 c)) 0 (fun u => { cpu := u.resultZn a ((u.reg b) &&& ~~~ (u.reg c)) }) s)

/-- ADDS ga, gb, gc (R113). -/
def execAdds (t : Nat) (a b c : Reg) (s : State) : Out :=
  .next (runCpu t (header 3 a b (rField 0 c)) 0 (fun u => { cpu := u.resultSat a (satSigned ((u.reg b).toInt + (u.reg c).toInt)) }) s)

/-- SUBS ga, gb, gc (R113). -/
def execSubs (t : Nat) (a b c : Reg) (s : State) : Out :=
  .next (runCpu t (header 3 a b (rField 1 c)) 0 (fun u => { cpu := u.resultSat a (satSigned ((u.reg b).toInt - (u.reg c).toInt)) }) s)

/-- ADDUS ga, gb, gc (R113). -/
def execAddus (t : Nat) (a b c : Reg) (s : State) : Out :=
  .next (runCpu t (header 3 a b (rField 2 c)) 0 (fun u => { cpu := u.resultSat a (satUnsigned (((u.reg b).toNat : Int) + (u.reg c).toNat)) }) s)

/-- SUBUS ga, gb, gc (R113). -/
def execSubus (t : Nat) (a b c : Reg) (s : State) : Out :=
  .next (runCpu t (header 3 a b (rField 3 c)) 0 (fun u => { cpu := u.resultSat a (satUnsigned (((u.reg b).toNat : Int) - (u.reg c).toNat)) }) s)

/-- MIN ga, gb, gc (R113). -/
def execMin (t : Nat) (a b c : Reg) (s : State) : Out :=
  .next (runCpu t (header 3 a b (rField 4 c)) 0 (fun u => { cpu := u.resultZn a (minSigned (u.reg b) (u.reg c)) }) s)

/-- MAX ga, gb, gc (R113). -/
def execMax (t : Nat) (a b c : Reg) (s : State) : Out :=
  .next (runCpu t (header 3 a b (rField 5 c)) 0 (fun u => { cpu := u.resultZn a (maxSigned (u.reg b) (u.reg c)) }) s)

/-- MINU ga, gb, gc (R113). -/
def execMinu (t : Nat) (a b c : Reg) (s : State) : Out :=
  .next (runCpu t (header 3 a b (rField 6 c)) 0 (fun u => { cpu := u.resultZn a (minUnsigned (u.reg b) (u.reg c)) }) s)

/-- MAXU ga, gb, gc (R113). -/
def execMaxu (t : Nat) (a b c : Reg) (s : State) : Out :=
  .next (runCpu t (header 3 a b (rField 7 c)) 0 (fun u => { cpu := u.resultZn a (maxUnsigned (u.reg b) (u.reg c)) }) s)

/-- SHL ga, gb, gc (R113). -/
def execShl (t : Nat) (a b c : Reg) (s : State) : Out :=
  .next (runCpu t (header 4 a b (rField 0 c)) 0 (fun u => { cpu := u.shifted .shl a b (u.reg c).toNat }) s)

/-- SHR ga, gb, gc (R113). -/
def execShr (t : Nat) (a b c : Reg) (s : State) : Out :=
  .next (runCpu t (header 4 a b (rField 1 c)) 0 (fun u => { cpu := u.shifted .shr a b (u.reg c).toNat }) s)

/-- SAR ga, gb, gc (R113). -/
def execSar (t : Nat) (a b c : Reg) (s : State) : Out :=
  .next (runCpu t (header 4 a b (rField 2 c)) 0 (fun u => { cpu := u.shifted .sar a b (u.reg c).toNat }) s)

/-- ROL ga, gb, gc (R113). -/
def execRol (t : Nat) (a b c : Reg) (s : State) : Out :=
  .next (runCpu t (header 4 a b (rField 3 c)) 0 (fun u => { cpu := u.shifted .rol a b (u.reg c).toNat }) s)

/-- ROR ga, gb, gc (R113). -/
def execRor (t : Nat) (a b c : Reg) (s : State) : Out :=
  .next (runCpu t (header 4 a b (rField 4 c)) 0 (fun u => { cpu := u.shifted .ror a b (u.reg c).toNat }) s)

/-- SHLI ga, gb, n (R113). -/
def execShli (t : Nat) (a b : Reg) (n : BitVec 6) (s : State) : Out :=
  .next (runCpu t (header 5 a b n) 0 (fun u => { cpu := u.shifted .shl a b n.toNat }) s)

/-- SHRI ga, gb, n (R113). -/
def execShri (t : Nat) (a b : Reg) (n : BitVec 6) (s : State) : Out :=
  .next (runCpu t (header 6 a b n) 0 (fun u => { cpu := u.shifted .shr a b n.toNat }) s)

/-- SARI ga, gb, n (R113). -/
def execSari (t : Nat) (a b : Reg) (n : BitVec 6) (s : State) : Out :=
  .next (runCpu t (header 7 a b n) 0 (fun u => { cpu := u.shifted .sar a b n.toNat }) s)

/-- ADDI ga, gb, simm6 (R113). -/
def execAddi (t : Nat) (a b : Reg) (imm : BitVec 6) (s : State) : Out :=
  .next (runCpu t (header 0o10 a b imm) 0 (fun u => { cpu := u.resultZncv a (addWith (u.reg b) (simm6 imm) false) }) s)

/-- CMP ga, gb (R113): the flags of ga − gb. -/
def execCmp (t : Nat) (a b : Reg) (s : State) : Out :=
  .next (runCpu t (header 0o12 a b 0) 0 (fun u => { cpu := u.setFlags (u.fl.zncv (subWith (u.reg a) (u.reg b) false)) }) s)

/-- TST ga, gb (R113): the flags of ga and gb. -/
def execTst (t : Nat) (a b : Reg) (s : State) : Out :=
  .next (runCpu t (header 0o12 a b 1) 0 (fun u => { cpu := u.setFlags (u.fl.zn (u.reg a &&& u.reg b)) }) s)

/-- CMPD da, db (R113): the flags of da − db. -/
def execCmpd (t : Nat) (a b : Reg) (s : State) : Out :=
  .next (runCpu t (header 0o12 a b 2) 0 (fun u => { cpu := u.setFlags (u.fl.zncv (subWith (u.pair a) (u.pair b) false)) }) s)

/-- CMPI ga, simm6 (R113): the flags of ga − simm6. -/
def execCmpi (t : Nat) (a : Reg) (imm : BitVec 6) (s : State) : Out :=
  .next (runCpu t (header 0o13 a 0 imm) 0 (fun u => { cpu := u.setFlags (u.fl.zncv (subWith (u.reg a) (simm6 imm) false)) }) s)

/-- MULS da, gb, gc (R113): exact signed product; C = 0, V = 0. -/
def execMuls (t : Nat) (a b c : Reg) (s : State) : Out :=
  .next (runCpu t (header 0o14 a b (rField 0 c)) 0 (fun u =>
    { cpu := (u.setPair a (mulSigned (u.reg b) (u.reg c))).setFlags (u.fl.multiplied (mulSigned (u.reg b) (u.reg c))), cycles := 2 }) s)

/-- MULU da, gb, gc (R113): exact unsigned product; C = 0, V = 0. -/
def execMulu (t : Nat) (a b c : Reg) (s : State) : Out :=
  .next (runCpu t (header 0o14 a b (rField 1 c)) 0 (fun u =>
    { cpu := (u.setPair a (mulUnsigned (u.reg b) (u.reg c))).setFlags (u.fl.multiplied (mulUnsigned (u.reg b) (u.reg c))), cycles := 2 }) s)

/-- What a divide gives: a divisor of 0 takes trap 4 after the saturated result (R114, R130). -/
def divRet (u : Cpu) (a : Reg) (detail : Nat) (r : DivResult) : Ret :=
  { cpu := u.divided a r, cycles := 19, trap := if r.byZero then some (4, detail) else none }

/-- DIVS da, db, gc (R113, R114). -/
def execDivs (t : Nat) (a b c : Reg) (s : State) : Out :=
  .next (runCpu t (header 0o15 a b (rField 0 c)) 0 (fun u => divRet u a 0 (divSigned (u.pair b) (u.reg c))) s)

/-- DIVU da, db, gc (R113, R114). -/
def execDivu (t : Nat) (a b c : Reg) (s : State) : Out :=
  .next (runCpu t (header 0o15 a b (rField 1 c)) 0 (fun u => divRet u a 1 (divUnsigned (u.pair b) (u.reg c))) s)

/-- BTST ga, n (R113): n from 18 to 63 is taken as 17; Z = not the old bit. -/
def execBtst (t : Nat) (a : Reg) (n : BitVec 6) (s : State) : Out :=
  .next (runCpu t (header 0o16 a 0 n) 0 (fun u => { cpu := u.bitDone a n (fun w _ => w) }) s)

/-- BSET ga, n (R113): n from 18 to 63 is taken as 17; Z = not the old bit. -/
def execBset (t : Nat) (a : Reg) (n : BitVec 6) (s : State) : Out :=
  .next (runCpu t (header 0o16 a 1 n) 0 (fun u => { cpu := u.bitDone a n (fun w k => w ||| k) }) s)

/-- BCLR ga, n (R113): n from 18 to 63 is taken as 17; Z = not the old bit. -/
def execBclr (t : Nat) (a : Reg) (n : BitVec 6) (s : State) : Out :=
  .next (runCpu t (header 0o16 a 2 n) 0 (fun u => { cpu := u.bitDone a n (fun w k => w &&& ~~~ k) }) s)

/-- BINV ga, n (R113): n from 18 to 63 is taken as 17; Z = not the old bit. -/
def execBinv (t : Nat) (a : Reg) (n : BitVec 6) (s : State) : Out :=
  .next (runCpu t (header 0o16 a 3 n) 0 (fun u => { cpu := u.bitDone a n (fun w k => w ^^^ k) }) s)

/-- CLZ ga, gb (R124). -/
def execClz (t : Nat) (a b : Reg) (s : State) : Out :=
  .next (runCpu t (header 0o17 a b 0) 0 (fun u => { cpu := u.resultZn a (word (leadingZeros (u.reg b) 18)) }) s)

/-- CTZ ga, gb (R124). -/
def execCtz (t : Nat) (a b : Reg) (s : State) : Out :=
  .next (runCpu t (header 0o17 a b 1) 0 (fun u => { cpu := u.resultZn a (word (trailingZeros (u.reg b) 18)) }) s)

/-- POPC ga, gb (R124). -/
def execPopc (t : Nat) (a b : Reg) (s : State) : Out :=
  .next (runCpu t (header 0o17 a b 2) 0 (fun u => { cpu := u.resultZn a (word (onesIn (u.reg b) 18)) }) s)

/-- BREV ga, gb (R124). -/
def execBrev (t : Nat) (a b : Reg) (s : State) : Out :=
  .next (runCpu t (header 0o17 a b 3) 0 (fun u => { cpu := u.resultZn a (reverseBits (u.reg b)) }) s)

/-- SWN ga, gb (R124). -/
def execSwn (t : Nat) (a b : Reg) (s : State) : Out :=
  .next (runCpu t (header 0o17 a b 4) 0 (fun u => { cpu := u.resultZn a (swapNonets (u.reg b)) }) s)

/-- SXO ga, gb (R124). -/
def execSxo (t : Nat) (a b : Reg) (s : State) : Out :=
  .next (runCpu t (header 0o17 a b 5) 0 (fun u => { cpu := u.resultZn a (signOctet (u.reg b)) }) s)

/-- SXN ga, gb (R124). -/
def execSxn (t : Nat) (a b : Reg) (s : State) : Out :=
  .next (runCpu t (header 0o17 a b 6) 0 (fun u => { cpu := u.resultZn a (signNonet (u.reg b)) }) s)

/-- ADDD da, db, dc (R113). -/
def execAddd (t : Nat) (a b c : Reg) (s : State) : Out :=
  .next (runCpu t (header 0o20 a b (rField 0 c)) 0 (fun u => { cpu := u.pairZncv a (addWith (u.pair b) (u.pair c) false) }) s)

/-- SUBD da, db, dc (R113). -/
def execSubd (t : Nat) (a b c : Reg) (s : State) : Out :=
  .next (runCpu t (header 0o20 a b (rField 1 c)) 0 (fun u => { cpu := u.pairZncv a (subWith (u.pair b) (u.pair c) false) }) s)

/-- ANDD da, db, dc (R113). -/
def execAndd (t : Nat) (a b c : Reg) (s : State) : Out :=
  .next (runCpu t (header 0o20 a b (rField 2 c)) 0 (fun u => { cpu := u.pairZn a ((u.pair b) &&& (u.pair c)) }) s)

/-- ORD da, db, dc (R113). -/
def execOrd (t : Nat) (a b c : Reg) (s : State) : Out :=
  .next (runCpu t (header 0o20 a b (rField 3 c)) 0 (fun u => { cpu := u.pairZn a ((u.pair b) ||| (u.pair c)) }) s)

/-- XORD da, db, dc (R113). -/
def execXord (t : Nat) (a b c : Reg) (s : State) : Out :=
  .next (runCpu t (header 0o20 a b (rField 4 c)) 0 (fun u => { cpu := u.pairZn a ((u.pair b) ^^^ (u.pair c)) }) s)

/-- NPERM da, db (R125): the selector is op bits 1:0 over c. -/
def execNperm (t : Nat) (a b : Reg) (sel : BitVec 8) (s : State) : Out :=
  .next (runCpu t ((0b1001#4 ++ sel.extractLsb' 6 2) ++ a ++ b ++ sel.extractLsb' 0 6) 0
    (fun u => { cpu := u.setPair a (nonetPermute (u.pair b) sel) }) s)

/-- ADDI ga, gb, imm18 (R116). -/
def execAddiImm18 (t : Nat) (a b : Reg) (imm : Word) (s : State) : Out :=
  .next (runCpu t (header 0o60 a b 0) imm (fun u => { cpu := u.resultZncv a (addWith (u.reg b) imm false) }) s)

/-- SUBI ga, gb, imm18 (R116). -/
def execSubi (t : Nat) (a b : Reg) (imm : Word) (s : State) : Out :=
  .next (runCpu t (header 0o60 a b 1) imm (fun u => { cpu := u.resultZncv a (subWith (u.reg b) imm false) }) s)

/-- ANDI ga, gb, imm18 (R116). -/
def execAndi (t : Nat) (a b : Reg) (imm : Word) (s : State) : Out :=
  .next (runCpu t (header 0o60 a b 2) imm (fun u => { cpu := u.resultZn a (u.reg b &&& imm) }) s)

/-- ORI ga, gb, imm18 (R116). -/
def execOri (t : Nat) (a b : Reg) (imm : Word) (s : State) : Out :=
  .next (runCpu t (header 0o60 a b 3) imm (fun u => { cpu := u.resultZn a (u.reg b ||| imm) }) s)

/-- XORI ga, gb, imm18 (R116). -/
def execXori (t : Nat) (a b : Reg) (imm : Word) (s : State) : Out :=
  .next (runCpu t (header 0o60 a b 4) imm (fun u => { cpu := u.resultZn a (u.reg b ^^^ imm) }) s)

/-- MOVI ga, imm18 (R116). -/
def execMoviImm18 (t : Nat) (a : Reg) (imm : Word) (s : State) : Out :=
  .next (runCpu t (header 0o60 a 0 5) imm (fun u => { cpu := u.setReg a imm }) s)

/-- CMPI ga, imm18 (R116). -/
def execCmpiImm18 (t : Nat) (a : Reg) (imm : Word) (s : State) : Out :=
  .next (runCpu t (header 0o60 a 0 6) imm (fun u => { cpu := u.setFlags (u.fl.zncv (subWith (u.reg a) imm false)) }) s)

/-- TSTI ga, imm18 (R116). -/
def execTsti (t : Nat) (a : Reg) (imm : Word) (s : State) : Out :=
  .next (runCpu t (header 0o60 a 0 7) imm (fun u => { cpu := u.setFlags (u.fl.zn (u.reg a &&& imm)) }) s)

/-- ADDSI ga, gb, imm18 (R116). -/
def execAddsi (t : Nat) (a b : Reg) (imm : Word) (s : State) : Out :=
  .next (runCpu t (header 0o60 a b 8) imm (fun u => { cpu := u.resultSat a (satSigned ((u.reg b).toInt + imm.toInt)) }) s)

/-- MINI ga, gb, imm18 (R116). -/
def execMini (t : Nat) (a b : Reg) (imm : Word) (s : State) : Out :=
  .next (runCpu t (header 0o60 a b 9) imm (fun u => { cpu := u.resultZn a (minSigned (u.reg b) imm) }) s)

/-- MAXI ga, gb, imm18 (R116). -/
def execMaxi (t : Nat) (a b : Reg) (imm : Word) (s : State) : Out :=
  .next (runCpu t (header 0o60 a b 10) imm (fun u => { cpu := u.resultZn a (maxSigned (u.reg b) imm) }) s)

/-- BFX (R123). -/
def execBfx (t : Nat) (a b : Reg) (pos len : BitVec 6) (s : State) : Out :=
  .next (runCpu t (header 0o61 a b 0) (bfWord pos len)
    (fun u => { cpu := u.resultZn a (fieldOf (u.reg b) (fieldPos pos) (fieldLen pos len)) }) s)

/-- BFXS (R123). -/
def execBfxs (t : Nat) (a b : Reg) (pos len : BitVec 6) (s : State) : Out :=
  .next (runCpu t (header 0o61 a b 1) (bfWord pos len)
    (fun u => { cpu := u.resultZn a (fieldSigned (u.reg b) (fieldPos pos) (fieldLen pos len)) }) s)

/-- BFI (R123). -/
def execBfi (t : Nat) (a b : Reg) (pos len : BitVec 6) (s : State) : Out :=
  .next (runCpu t (header 0o61 a b 2) (bfWord pos len)
    (fun u => { cpu := u.resultZn a (fieldInsert (u.reg a) (u.reg b) (fieldPos pos) (fieldLen pos len)) }) s)

/-- BFC (R123). -/
def execBfc (t : Nat) (a : Reg) (pos len : BitVec 6) (s : State) : Out :=
  .next (runCpu t (header 0o61 a 0 3) (bfWord pos len)
    (fun u => { cpu := u.resultZn a (u.reg a &&& ~~~ fieldMask (fieldPos pos) (fieldLen pos len)) }) s)

/-- BFS (R123). -/
def execBfs (t : Nat) (a : Reg) (pos len : BitVec 6) (s : State) : Out :=
  .next (runCpu t (header 0o61 a 0 4) (bfWord pos len)
    (fun u => { cpu := u.resultZn a (u.reg a ||| fieldMask (fieldPos pos) (fieldLen pos len)) }) s)

/-- JCC cc, target (R112, R116): 2 cycles if taken, 1 if not. -/
def execJcc (t : Nat) (cc : BitVec 4) (target : Word) (s : State) : Out :=
  .next (runCpu t (header 0o62 0 0 (cc.zeroExtend 6)) target (fun u =>
    if u.fl.holds cc then { cpu := u, jump := some (addrOf target), cycles := 2 } else { cpu := u }) s)

/-- CALLA target (R116, R118): push PC + 2, then PC = target. -/
def execCalla (t : Nat) (target : Word) (s : State) : Out :=
  .next (runInstr t (header 0o63 0 0 0) target (fun s _ u => callRet (s.mem t) u (u.pc + 2) (addrOf target)) s)

end Sys2Proof.Machine
end

