-- ==== Sys2Proof/Machine/TileMemory.lean ====
section
/-!
DEFINITION. The memory, stack, nonet and far-access instructions (R115, R116, R118–R120) and the effects
SEND and POST (R122, R149), with the reserved-opcode trap (R110, R131).
-/

namespace Sys2Proof.Machine

/-! ## Tile data and code memory -/

/-- LD ga, simm6(gb) (R115). -/
def execLd (t : Nat) (a b : Reg) (imm : BitVec 6) (s : State) : Out :=
  .next (runInstr t (header 0o21 a b imm) 0 (fun s x u =>
    { cpu := u.setReg a (x.load (s.mem t) (u.ea b imm)), reads := [.data (u.ea b imm)] }) s)

/-- ST ga, simm6(gb) (R115). -/
def execSt (t : Nat) (a b : Reg) (imm : BitVec 6) (s : State) : Out :=
  .next (runCpu t (header 0o22 a b imm) 0 (fun u => { cpu := u, stores := [(u.ea b imm, u.reg a)] }) s)

/-- The core after a pair is loaded from `ea` and `ea + 1` (R115). -/
def loadPair (m : TileMem) (x : Tile) (u : Cpu) (a : Reg) (ea : Addr) : Ret :=
  { cpu := u.setPair a (joinDword (x.load m ea) (x.load m (ea + 1))), cycles := 2, reads := readsData ea 2 }

/-- A pair stored to `ea` and `ea + 1` (R115). -/
def storePair (u : Cpu) (a : Reg) (ea : Addr) : Ret :=
  { cpu := u, stores := [(ea, u.reg (evenReg a)), (ea + 1, u.reg (oddReg a))], cycles := 2 }

/-- LDD da, simm6(gb) (R115). -/
def execLdd (t : Nat) (a b : Reg) (imm : BitVec 6) (s : State) : Out :=
  .next (runInstr t (header 0o23 a b imm) 0 (fun s x u => loadPair (s.mem t) x u a (u.ea b imm)) s)

/-- STD da, simm6(gb) (R115). -/
def execStd (t : Nat) (a b : Reg) (imm : BitVec 6) (s : State) : Out :=
  .next (runCpu t (header 0o24 a b imm) 0 (fun u => storePair u a (u.ea b imm)) s)

/-- PUSH ga (R118): first decrements g7, then stores. DESIGN CHOICE: PUSH g7 stores g7 as it stood before the decrement. -/
def execPush (t : Nat) (a : Reg) (s : State) : Out :=
  .next (runInstr t (header 0o25 a 0 0) 0 (fun s _ u =>
    match pushTrap u (s.mem t) 1 with
    | some tr => { cpu := u, trap := some tr }
    | none => { cpu := u.moveSp (-1), stores := [(u.spAddr (-1), u.reg a)] }) s)

/-- POP ga (R118): first loads, then increments g7. -/
def execPop (t : Nat) (a : Reg) (s : State) : Out :=
  .next (runInstr t (header 0o25 a 0 1) 0 (fun s x u =>
    match popTrap u (s.mem t) 1 with
    | some tr => { cpu := u, trap := some tr }
    | none =>
      { cpu := (u.setReg a (x.load (s.mem t) (u.spAddr 0))).setReg 7 (u.reg 7 + 1), reads := [.data (u.spAddr 0)] }) s)

/-- PUSHD da (R118): high word first, so the low word lies at the lower address. DESIGN CHOICE: of the pair that holds g7, g7 as
it stood before the decrement. -/
def execPushd (t : Nat) (a : Reg) (s : State) : Out :=
  .next (runInstr t (header 0o25 a 0 2) 0 (fun s _ u =>
    match pushTrap u (s.mem t) 2 with
    | some tr => { cpu := u, trap := some tr }
    | none =>
      { cpu := u.moveSp (-2), cycles := 2
        stores := [(u.spAddr (-1), u.reg (oddReg a)), (u.spAddr (-2), u.reg (evenReg a))] }) s)

/-- POPD da (R118). -/
def execPopd (t : Nat) (a : Reg) (s : State) : Out :=
  .next (runInstr t (header 0o25 a 0 3) 0 (fun s x u =>
    match popTrap u (s.mem t) 2 with
    | some tr => { cpu := u, trap := some tr }
    | none =>
      { cpu := (u.setPair a (joinDword (x.load (s.mem t) (u.spAddr 0)) (x.load (s.mem t) (u.spAddr 1)))).setReg 7
          (u.reg 7 + 2), cycles := 2, reads := readsData (u.spAddr 0) 2 }) s)

/-- LDC ga, simm6(gb) (R115): ga = code[ea]. -/
def execLdc (t : Nat) (a b : Reg) (imm : BitVec 6) (s : State) : Out :=
  .next (runInstr t (header 0o26 a b imm) 0 (fun s _ u =>
    { cpu := u.setReg a (Tbl.get 0 (s.mem t).code (u.ea b imm).toNat), cycles := 2, reads := [.code (u.ea b imm)] }) s)

/-! ## Nonets (R119) -/

/-- The word a nonet address names: bits 17:1 (R119). -/
def nonetWord (n : Word) : Addr := n.extractLsb' 1 17

/-- The nonet at a nonet address. -/
def loadNonet (m : TileMem) (x : Tile) (n : Word) : BitVec 9 :=
  (x.load m (nonetWord n)).extractLsb' (if bitOf n 0 then 9 else 0) 9

/-- The word at a nonet address with its nonet replaced (R119). -/
def putNonet (m : TileMem) (x : Tile) (n w : Word) : Word :=
  let old := x.load m (nonetWord n)
  if bitOf n 0 then w.extractLsb' 0 9 ++ old.extractLsb' 0 9 else old.extractLsb' 9 9 ++ w.extractLsb' 0 9

/-- The core after a nonet is loaded: Z when bits 7:0 are 0, C = bit 8 (R119). -/
def Cpu.nonetLoaded (u : Cpu) (a : Reg) (v : BitVec 9) : Cpu :=
  (u.setReg a (v.zeroExtend 18)).setFlags { u.fl with z := decide (v.extractLsb' 0 8 = 0), c := v.getLsbD 8 }

/-- LDN ga, gb (R119). -/
def execLdn (t : Nat) (a b : Reg) (s : State) : Out :=
  .next (runInstr t (header 0o27 a b 0) 0 (fun s x u =>
    { cpu := u.nonetLoaded a (loadNonet (s.mem t) x (u.reg b)), reads := [.data (nonetWord (u.reg b))] }) s)

/-- STN ga, gb (R119). -/
def execStn (t : Nat) (a b : Reg) (s : State) : Out :=
  .next (runInstr t (header 0o27 a b 1) 0 (fun s x u =>
    { cpu := u, stores := [(nonetWord (u.reg b), putNonet (s.mem t) x (u.reg b) (u.reg a))]
      reads := [.data (nonetWord (u.reg b))] }) s)

/-- LDNI ga, gb (R119): as LDN, then gb = gb + 1. -/
def execLdni (t : Nat) (a b : Reg) (s : State) : Out :=
  .next (runInstr t (header 0o27 a b 2) 0 (fun s x u =>
    { cpu := (u.nonetLoaded a (loadNonet (s.mem t) x (u.reg b))).setReg b (u.reg b + 1)
      reads := [.data (nonetWord (u.reg b))] }) s)

/-- STNI ga, gb (R119): as STN, then gb = gb + 1. -/
def execStni (t : Nat) (a b : Reg) (s : State) : Out :=
  .next (runInstr t (header 0o27 a b 3) 0 (fun s x u =>
    { cpu := u.setReg b (u.reg b + 1)
      stores := [(nonetWord (u.reg b), putNonet (s.mem t) x (u.reg b) (u.reg a))]
      reads := [.data (nonetWord (u.reg b))] }) s)

/-! ## Far access (R120) -/

/-- AREA of a far address: bits 2:0 of the odd register (R120). -/
def farArea (u : Cpu) (b : Reg) : Nat := bitsOf (u.reg (oddReg b)) 2 0

/-- INDEX of a far address before clamping: the even register (R120). -/
def farIndex (u : Cpu) (b : Reg) : Nat := (u.reg (evenReg b)).toNat

/-- A far load (R66, R67, R120): the input image; the task's own held value of an output or exchange word,
else the value committed at the end of the last tick; 0 from a reserved area. -/
def farLoad (m : Mortar) (x : Tile) (area index : Nat) : Word :=
  let i := clampIndex area index
  match area with
  | 0 => Tbl.get 0 m.input i
  | 1 => (Tbl.get none x.held (heldKey 1 i)).getD (Tbl.get 0 m.out i)
  | 2 => (Tbl.get none x.held (heldKey 2 i)).getD (Tbl.get 0 m.exch i)
  | _ => 0

/-- The cycles of a far access: 6 to 12, a free value (R117). -/
def farCycles (s : State) : Nat := 6 + Config.farExtra s.fresh % 7

/-- FLD ga, db (R120). -/
def execFld (t : Nat) (a b : Reg) (s : State) : Out :=
  .next (runInstr t (header 0o40 a b 0) 0 (fun s x u =>
    { cpu := u.setReg a (farLoad s.work.mortar x (farArea u b) (farIndex u b)), cycles := farCycles s,
      folds := [farLoadItem (farArea u b) (clampIndex (farArea u b) (farIndex u b))]
      reads := [.far (farArea u b) (clampIndex (farArea u b) (farIndex u b))] }) s)

/-- A far store request (R120, R121, R149). -/
def farStore (s : State) (u c' : Cpu) (b : Reg) (ws : List Word) : Ret :=
  { cpu := c', cycles := farCycles s,
    effect := some (.farStore (farArea u b) (clampIndex (farArea u b) (farIndex u b)) ws) }

/-- FST ga, db (R120). -/
def execFst (t : Nat) (a b : Reg) (s : State) : Out :=
  .next (runInstr t (header 0o40 a b 1) 0 (fun s _ u => farStore s u u b [u.reg a]) s)

/-- FLDD da, db (R120): INDEX and INDEX + 1. DESIGN CHOICE: INDEX + 1 of 262,143 is no index that wraps but one above the area,
which R120 clamps; and each of the two words is a far load address that is folded (R145). -/
def execFldd (t : Nat) (a b : Reg) (s : State) : Out :=
  .next (runInstr t (header 0o40 a b 2) 0 (fun s x u =>
    let area := farArea u b
    let i := farIndex u b
    { cpu := u.setPair a (joinDword (farLoad s.work.mortar x area i) (farLoad s.work.mortar x area (i + 1))),
      cycles := farCycles s,
      folds := [farLoadItem area (clampIndex area i), farLoadItem area (clampIndex area (i + 1))]
      reads := [.far area (clampIndex area i), .far area (clampIndex area (i + 1))] }) s)

/-- FSTD da, db (R120). -/
def execFstd (t : Nat) (a b : Reg) (s : State) : Out :=
  .next (runInstr t (header 0o40 a b 3) 0 (fun s _ u =>
    farStore s u u b [u.reg (evenReg a), u.reg (oddReg a)]) s)

/-- FLDI ga, db (R120): adds 1 to gb after the access, modulo 262,144. DESIGN CHOICE: where ga is gb, the incremented index stands
and the loaded word is lost. -/
def execFldi (t : Nat) (a b : Reg) (s : State) : Out :=
  .next (runInstr t (header 0o40 a b 4) 0 (fun s x u =>
    { cpu := (u.setReg a (farLoad s.work.mortar x (farArea u b) (farIndex u b))).setReg (evenReg b)
        (u.reg (evenReg b) + 1), cycles := farCycles s,
      folds := [farLoadItem (farArea u b) (clampIndex (farArea u b) (farIndex u b))]
      reads := [.far (farArea u b) (clampIndex (farArea u b) (farIndex u b))] }) s)

/-- FSTI ga, db (R120). -/
def execFsti (t : Nat) (a b : Reg) (s : State) : Out :=
  .next (runInstr t (header 0o40 a b 5) 0 (fun s _ u =>
    farStore s u (u.setReg (evenReg b) (u.reg (evenReg b) + 1)) b [u.reg a]) s)

/-! ## Absolute addresses (R116) -/

/-- LDA ga, addr. -/
def execLda (t : Nat) (a : Reg) (addr : Word) (s : State) : Out :=
  .next (runInstr t (header 0o66 a 0 0) addr (fun s x u =>
    { cpu := u.setReg a (x.load (s.mem t) (addrOf addr)), reads := [.data (addrOf addr)] }) s)

/-- STA ga, addr. -/
def execSta (t : Nat) (a : Reg) (addr : Word) (s : State) : Out :=
  .next (runCpu t (header 0o66 a 0 1) addr (fun u => { cpu := u, stores := [(addrOf addr, u.reg a)] }) s)

/-- LDDA da, addr. -/
def execLdda (t : Nat) (a : Reg) (addr : Word) (s : State) : Out :=
  .next (runInstr t (header 0o66 a 0 2) addr (fun s x u => loadPair (s.mem t) x u a (addrOf addr)) s)

/-- STDA da, addr. -/
def execStda (t : Nat) (a : Reg) (addr : Word) (s : State) : Out :=
  .next (runCpu t (header 0o66 a 0 3) addr (fun u => storePair u a (addrOf addr)) s)

/-! ## SEND, POST and the reserved-opcode trap -/

/-- The words of a channel's block: 8 or 16 (R122, R282). -/
def State.blockWords (s : State) (ch : Nat) : Nat := if (s.channel ch).bind.len16 then 16 else 8

/-- One retire step of SEND (R122, R145, R147): 4 cycles and the header first, then one step of a cycle for each of the block's
words `ws`, with which the request is complete (R149). -/
def sendRet (ch : Nat) (at_ : Addr) (ws : List Word) (u : Cpu) : Ret :=
  match u.request with
  | none => { cpu := { u with request := some 0 }, cycles := 4, folds := [effectHeader 1 ch 0], hold := true }
  | some _ =>
    { cpu := { u with request := none }, cycles := ws.length, folds := payloadItems 0 ws, effect := some (.send ch ws)
      reads := readsData at_ ws.length }

/-- SEND gb, addr (R122): a channel number above 31 is taken as 31. -/
def execSend (t : Nat) (b : Reg) (addr : Word) (s : State) : Out :=
  .next (runSteps t (header 0o65 0 b 0) addr Cpu.asking (fun s x u =>
    let ch := min 31 (u.reg b).toNat
    sendRet ch (addrOf addr) (x.loads (s.mem t) (addrOf addr) (s.blockWords ch)) u) (Config.windowCycles + 1) s)

/-- POST gb, addr (R122): 8 words at addr as one descriptor to ring gb. -/
def execPost (t : Nat) (b : Reg) (addr : Word) (s : State) : Out :=
  .next (runInstr t (header 0o65 0 b 1) addr (fun s x u =>
    { cpu := u, cycles := 12, effect := some (.post (u.reg b).toNat (x.loads (s.mem t) (addrOf addr) 8))
      reads := readsData (addrOf addr) 8 }) s)

/-- RESERVED_OPCODE_TRAP (R110, R131): the trap is raised before the instruction has any effect. A word that
is a defined instruction raises none. -/
def execReservedOpcodeTrap (t : Nat) (w w2 : Word) (s : State) : Out :=
  match reservedDetail w w2 with
  | none => .next s
  | some d =>
    .next (runCpu t w (if lengthOf w = 2 then w2 else 0) (fun u => { cpu := u, trap := some (0, d) }) s)

end Sys2Proof.Machine
end

