-- ==== Sys2Proof/Machine/Solver.lean ====
section
/-!
DEFINITION. The logic solver: SOLVE, the bed, courses, bit, word and timer units, and the illegal-course
trap (R79–R98).
-/

namespace Sys2Proof.Machine

/-! ## The block (R79) -/

/-- The header of a course block (R79). -/
structure BlockHeader where
  stages : Nat
  courses : Nat
  slots : Nat
  cellBase : Nat
  cells : Nat
deriving DecidableEq, Repr

/-- The fields of a header (R79). -/
def headerOf (code : Nat → Word) : BlockHeader :=
  { stages := bitsOf (code 0) 6 0, courses := bitsOf (code 1) 11 0, slots := bitsOf (code 2) 13 0,
    cellBase := bitsOf (code 3) 16 0, cells := bitsOf (code 4) 8 0 }

/-- Whether word `i` of a header keeps the rules of R79. -/
def headerWordOk (code : Nat → Word) (i : Nat) : Bool :=
  let h := headerOf code
  let w := code i
  match i with
  | 0 => decide (bitsOf w 17 12 = 1 ∧ bitsOf w 11 7 = 0 ∧ h.stages ≤ 64)
  | 1 => decide (bitsOf w 17 12 = 0 ∧ 1 ≤ h.courses)
  | 2 => decide (bitsOf w 17 14 = 0 ∧ h.courses ≤ h.slots ∧ h.slots ≤ 4 * h.courses)
  | 3 => decide (bitsOf w 17 17 = 0)
  | 4 => decide (bitsOf w 17 9 = 0 ∧ h.cells ≤ 256 ∧ h.cellBase + 8 * h.cells ≤ 131072)
  | _ => decide (w = 0)

/-- The first header word that breaks a rule of R79, none for a legal header. -/
def headerFault (code : Nat → Word) : Option Nat := (List.range 6).find? fun i => !headerWordOk code i

/-- The header at a code address, or none when it breaks a rule of R79. -/
def readHeader (code : Nat → Word) : Option BlockHeader :=
  if (headerFault code).isNone then some (headerOf code) else none

/-- A stage entry (R80). -/
structure StageEntry where
  area : Nat
  wb : Bool
  zero : Nat
  bed : Nat
  index : Nat
  value : Word
deriving DecidableEq, Repr

/-- A stage entry from its two words. -/
def stageOf (s0 s1 : Word) : StageEntry :=
  { area := bitsOf s0 17 15, wb := bitOf s0 14, zero := bitsOf s0 13 6, bed := bitsOf s0 5 0,
    index := s1.toNat, value := s1 }

/-- Whether a stage entry is legal, given the beds named before it (R81). -/
def stageLegal (h : BlockHeader) (used : List Nat) (e : StageEntry) : Bool :=
  decide (e.area ≤ 4) && decide (e.zero = 0) && !(used.contains e.bed) &&
    (match e.area with
     | 0 | 1 => decide (e.index ≤ 32767)
     | 2 => decide (e.index ≤ 8191)
     | 3 => decide (e.index ≤ 131071)
     | _ => true) &&
    !(e.wb && (decide (e.area = 0) || decide (e.area = 4))) &&
    !(e.wb && decide (e.area = 3) && decide (h.cellBase ≤ e.index) && decide (e.index < h.cellBase + 8 * h.cells))

/-! ## The course machine (R84–R91) -/

/-- The solver, the stores in order and the cycles of a course so far. -/
structure Bench where
  solver : Solver
  stores : List (Addr × Word)
  cycles : Nat

/-- What the T unit needs of the block: cell base and count, the tile's data memory, the tick count and P (R89, R90). -/
structure BlockEnv where
  cellBase : Nat
  cells : Nat
  load : Addr → Word
  now : Nat
  period : Nat

/-- A bed word. -/
def Solver.bedWord (v : Solver) (i : Nat) : Word := Tbl.get 0 v.bed i

/-- Write a bed word. -/
def Solver.setWord (v : Solver) (i : Nat) (w : Word) : Solver := { v with bed := Tbl.set 0 v.bed i w }

/-- Write one bed bit, merged bit by bit (R84). -/
def Solver.setBit (v : Solver) (i b : Nat) (x : Bool) : Solver :=
  let w := v.bedWord i
  v.setWord i (if x then w ||| word (2 ^ b) else w &&& ~~~ word (2 ^ b))

/-- The RLO of a bit unit. -/
def Solver.rlo (v : Solver) (u1 : Bool) : Bool := if u1 then v.rlo1 else v.rlo0

/-- Write the RLO of a bit unit. -/
def Solver.setRlo (v : Solver) (u1 : Bool) (x : Bool) : Solver := if u1 then { v with rlo1 := x } else { v with rlo0 := x }

/-- The branch stack of a bit unit. -/
def Solver.stack (v : Solver) (u1 : Bool) : List Bool := if u1 then v.stack1 else v.stack0

/-- Write the branch stack of a bit unit. -/
def Solver.setStack (v : Solver) (u1 : Bool) (x : List Bool) : Solver :=
  if u1 then { v with stack1 := x } else { v with stack0 := x }

/-- What a slot does: the solver after it, or a cause of R98. DESIGN CHOICE: where one slot word meets several causes, UNIT not
ascending (3) comes before a reserved field (4), and that before the branch stack (5) and CELL (6). -/
abbrev SlotResult := Except Nat Solver

/-- A bit slot of unit `u1` (R85, R86): reads the start-of-course state `a`, writes into `v`. -/
def bitSlot (u1 : Bool) (op : Nat) (a v : Solver) : SlotResult :=
  let bop := op / 2 ^ 11 % 16
  let bw := op / 2 ^ 5 % 64
  let bb := min (op % 32) 17
  let b := (a.bedWord bw).getLsbD bb
  let r := a.rlo u1
  let o := a.rlo (!u1)
  let zero := decide (op % 2 ^ 11 = 0)
  match bop with
  | 0 => .ok (v.setRlo u1 b)
  | 1 => .ok (v.setRlo u1 !b)
  | 2 => .ok (v.setRlo u1 (r && b))
  | 3 => .ok (v.setRlo u1 (r && !b))
  | 4 => .ok (v.setRlo u1 (r || b))
  | 5 => .ok (v.setRlo u1 (r || !b))
  | 6 => .ok (v.setRlo u1 (r != b))
  | 7 => .ok (v.setBit bw bb r)
  | 8 => .ok (v.setBit bw bb !r)
  | 9 => .ok (if r then v.setBit bw bb true else v)
  | 10 => .ok (if r then v.setBit bw bb false else v)
  | 11 =>
    if 7 ≤ (a.stack u1).length then .error 5
    else .ok ((v.setStack u1 (r :: a.stack u1)).setRlo u1 b)
  | 12 =>
    if !zero then .error 4
    else match a.stack u1 with
      | [] => .error 5
      | p :: rest => .ok ((v.setStack u1 rest).setRlo u1 (p && r))
  | 13 =>
    if !zero then .error 4
    else match a.stack u1 with
      | [] => .error 5
      | p :: rest => .ok ((v.setStack u1 rest).setRlo u1 (p || r))
  | 14 =>
    if op / 8 % 2 ^ 8 ≠ 0 then .error 4
    else match op % 8 with
      | 0 => .ok (v.setRlo u1 !r)
      | 1 => .ok (v.setRlo u1 true)
      | 2 => .ok (v.setRlo u1 false)
      | 3 => .ok (v.setRlo u1 o)
      | 4 => .ok (v.setRlo u1 (r && o))
      | 5 => .ok (v.setRlo u1 (r || o))
      | _ => .error 4
  | _ => .error 4

/-- A compare's write into an RLO (R88). -/
def compareInto (wc : Nat) (c : Bool) (a v : Solver) : SlotResult :=
  let u1 := decide (8 ≤ wc)
  match wc % 8 with
  | 0 => .ok (v.setRlo u1 c)
  | 1 => .ok (v.setRlo u1 (a.rlo u1 && c))
  | 2 => .ok (v.setRlo u1 (a.rlo u1 || c))
  | _ => .error 4

/-- A saturating or wrapping add or subtract of the word unit (R87, R88). -/
def wordAddSub (mode : Nat) (wrapped : Word) (signed unsigned : Int) (v : Solver) : SlotResult :=
  match mode with
  | 0 => .ok { v with wa := wrapped }
  | 1 => let r := satSigned signed; .ok { v with wa := r.value, sat := v.sat || r.sat }
  | 2 => let r := satUnsigned unsigned; .ok { v with wa := r.value, sat := v.sat || r.sat }
  | _ => .error 4

/-- A word slot (R87, R88). -/
def wordSlot (op : Nat) (a v : Solver) : SlotResult :=
  let wop := op / 2 ^ 10 % 32
  let ww := op / 16 % 64
  let wc := op % 16
  let w := a.bedWord ww
  let x := a.wa
  let count := min (op % 32) 17
  let plain (r : Word) : SlotResult := if wc = 0 then .ok { v with wa := r } else .error 4
  let shift (k : ShiftKind) : SlotResult :=
    if op / 32 % 32 = 0 then .ok { v with wa := shiftValue k x count } else .error 4
  match wop with
  | 0 => .ok { v with wa := (BitVec.ofNat 10 op).signExtend 18 }
  | 1 => plain w
  | 2 =>
    match wc with
    | 0 => .ok (v.setWord ww x)
    | 1 => .ok (if a.rlo0 then v.setWord ww x else v)
    | 2 => .ok (if a.rlo1 then v.setWord ww x else v)
    | 3 => .ok (if a.rlo0 then v else v.setWord ww x)
    | 4 => .ok (if a.rlo1 then v else v.setWord ww x)
    | _ => .error 4
  | 3 => wordAddSub wc (x + w) (x.toInt + w.toInt) ((x.toNat : Int) + w.toNat) v
  | 4 => wordAddSub wc (x - w) (x.toInt - w.toInt) ((x.toNat : Int) - w.toNat) v
  | 5 => plain (x &&& w)
  | 6 => plain (x ||| w)
  | 7 => plain (x ^^^ w)
  | 8 => shift .shl
  | 9 => shift .shr
  | 10 => shift .sar
  | 11 => plain (minSigned x w)
  | 12 => plain (maxSigned x w)
  | 13 => compareInto wc (decide (x = w)) a v
  | 14 => compareInto wc (decide (x ≠ w)) a v
  | 15 => compareInto wc (decide (x.toInt < w.toInt)) a v
  | 16 => compareInto wc (decide (x.toInt ≤ w.toInt)) a v
  | 17 => compareInto wc (decide (w.toInt < x.toInt)) a v
  | 18 => compareInto wc (decide (w.toInt ≤ x.toInt)) a v
  | 19 => compareInto wc (decide (x.toNat < w.toNat)) a v
  | 20 => compareInto wc (decide (w.toNat ≤ x.toNat)) a v
  | _ => .error 4

/-! ## Timer, counter and edge cells (R89–R91) -/

/-- A cell (R89): preset, START, flags, and ET or CV. -/
structure CellVal where
  preset : Nat
  start : Nat
  seen : Bool
  prev : Bool
  run : Bool
  q : Bool
  value : Nat
deriving DecidableEq, Repr

/-- The words of a cell that a T slot reads: those its operation names (R91). DEDUCED: the reads follow from the operations. -/
def cellReads (top sel : Nat) : List Nat :=
  match top with
  | 0 | 1 | 2 => [0, 1, 2, 3, 4, 5, 6, 7]
  | 3 | 4 => [0, 1, 5, 6, 7]
  | 5 => [5, 6, 7]
  | 6 => [0, 1, 6, 7]
  | 7 | 8 | 9 => [5]
  | 10 => [match sel with | 0 => 6 | 1 => 7 | 2 => 0 | 3 => 1 | _ => 5]
  | _ => []

/-- The words of a cell that a T slot stores (R91). -/
def cellWritten (top sel : Nat) : List Nat :=
  match top with
  | 0 | 1 | 2 => [2, 3, 4, 5, 6, 7]
  | 3 | 4 | 5 => [5, 6, 7]
  | 6 => [6, 7]
  | 7 | 8 => [5]
  | 11 => [sel]
  | _ => []

/-- A cell from its eight words (R89). -/
def cellOf (c : Nat → Word) : CellVal :=
  { preset := (c 0).toNat + (c 1).toNat * 2 ^ 18
    start := (c 2).toNat + (c 3).toNat * 2 ^ 18 + (c 4).toNat * 2 ^ 36
    seen := bitOf (c 5) 3, prev := bitOf (c 5) 2, run := bitOf (c 5) 1, q := bitOf (c 5) 0
    value := (c 6).toNat + (c 7).toNat * 2 ^ 18 }

/-- Word `i` of a cell (R89). -/
def CellVal.wordAt (c : CellVal) (i : Nat) : Word :=
  match i with
  | 0 => word c.preset
  | 1 => word (c.preset / 2 ^ 18)
  | 2 => word c.start
  | 3 => word (c.start / 2 ^ 18)
  | 4 => word (c.start / 2 ^ 36)
  | 5 => word (8 * flagNat c.seen + 4 * flagNat c.prev + 2 * flagNat c.run + flagNat c.q)
  | 6 => word c.value
  | 7 => word (c.value / 2 ^ 18)
  | _ => 0

/-- Elapsed time of a running interval, at most the preset (R90, R91). -/
def CellVal.elapsed (c : CellVal) (now period : Nat) : Nat :=
  min c.preset (if c.start ≤ now then (now - c.start) * period else Config.elapsedBefore now c.start period)

/-- TON (R91). -/
def evalTon (x : Bool) (now period : Nat) (c : CellVal) : CellVal :=
  if !x then { c with run := false, value := 0, q := false }
  else
    let c1 := if c.run then c else { c with run := true, start := now }
    let et := c1.elapsed now period
    { c1 with value := et, q := decide (c1.preset ≤ et) }

/-- TOF (R91). -/
def evalTof (x : Bool) (now period : Nat) (c : CellVal) : CellVal :=
  if x then { c with q := true, run := false, value := 0 }
  else if c.q then
    let c1 := if c.run then c else { c with run := true, start := now }
    let et := c1.elapsed now period
    if c1.preset ≤ et then { c1 with value := et, q := false, run := false } else { c1 with value := et }
  else c

/-- TP (R91). -/
def evalTp (x : Bool) (now period : Nat) (c : CellVal) : CellVal :=
  let edge := x && !c.prev && c.seen
  let c1 := if edge && !c.run then { c with run := true, start := now, q := true } else c
  let c2 :=
    if c1.run then
      let et := c1.elapsed now period
      if c1.preset ≤ et then { c1 with value := et, q := false, run := false } else { c1 with value := et }
    else if !x then { c1 with value := 0 }
    else c1
  { c2 with prev := x, seen := true }

/-- CTU (R91). -/
def evalCtu (x : Bool) (c : CellVal) : CellVal :=
  let cv := if x && !c.prev && c.seen then min (c.value + 1) (2 ^ 36 - 1) else c.value
  { c with value := cv, q := decide (c.preset ≤ cv), prev := x, seen := true }

/-- CTD (R91). -/
def evalCtd (x : Bool) (c : CellVal) : CellVal :=
  let cv := if x && !c.prev && c.seen then c.value - 1 else c.value
  { c with value := cv, q := decide (cv = 0), prev := x, seen := true }

/-- RSC (R91): PREV and SEEN are unchanged. -/
def evalRsc (x : Bool) (c : CellVal) : CellVal := if x then { c with q := false, run := false, value := 0 } else c

/-- LPV (R91). -/
def evalLpv (x : Bool) (c : CellVal) : CellVal := if x then { c with value := c.preset } else c

/-- RED (R91). -/
def evalRed (x : Bool) (c : CellVal) : CellVal := { c with q := x && !c.prev && c.seen, prev := x, seen := true }

/-- FED (R91). -/
def evalFed (x : Bool) (c : CellVal) : CellVal := { c with q := !x && c.prev && c.seen, prev := x, seen := true }

/-- The words an operation stores (R91), from what `w` gives for each. -/
def cellStores (base : Nat) (w : Nat → Word) (words : List Nat) : List (Addr × Word) :=
  words.map fun i => (BitVec.ofNat 17 (base + i), w i)

/-- What a T slot does: the solver after it, its stores in order and its cycles, or a cause of R98. -/
def timerSlot (env : BlockEnv) (op : Nat) (a v : Solver) :
    Except Nat (Solver × List (Addr × Word) × Nat) :=
  let top := op / 2 ^ 11 % 16
  let k := op / 8 % 256
  let sel := op % 8
  let u1 := decide (sel % 2 = 1)
  let x := a.rlo u1
  let base := env.cellBase + 8 * k
  let cw (i : Nat) : Word := env.load (BitVec.ofNat 17 (base + i))
  let c := cellOf cw
  let stored (q : Bool) (w : Nat → Word) (n : Nat) : Except Nat (Solver × List (Addr × Word) × Nat) :=
    if 4 ≤ sel then .error 4
    else if env.cells ≤ k then .error 6
    else .ok (if 2 ≤ sel then v.setRlo u1 q else v, cellStores base w (cellWritten top sel), n)
  let timed (c' : CellVal) (n : Nat) := stored c'.q c'.wordAt n
  let unlessX (c' : CellVal) (n : Nat) := if x then timed c' n else stored c.q cw n
  match top with
  | 0 => timed (evalTon x env.now env.period c) 3
  | 1 => timed (evalTof x env.now env.period c) 3
  | 2 => timed (evalTp x env.now env.period c) 3
  | 3 => timed (evalCtu x c) 3
  | 4 => timed (evalCtd x c) 3
  | 5 => unlessX (evalRsc x c) 2
  | 6 => unlessX (evalLpv x c) 2
  | 7 => timed (evalRed x c) 2
  | 8 => timed (evalFed x c) 2
  | 9 =>
    if 2 ≤ sel then .error 4 else if env.cells ≤ k then .error 6 else .ok (v.setRlo u1 c.q, [], 2)
  | 10 =>
    if 5 ≤ sel then .error 4
    else if env.cells ≤ k then .error 6
    else .ok ({ v with wa := cw ((cellReads 10 sel).headD 0) }, [], 2)
  | 11 =>
    if 2 ≤ sel then .error 4
    else if env.cells ≤ k then .error 6
    else .ok (v, cellStores base (fun _ => a.wa) (cellWritten top sel), 2)
  | _ => .error 4

/-! ## Courses (R82–R84) -/

/-- Run the slots of one course from slot word `i`: units strictly ascending, each slot reading the start
state `a` (R83, R84). Answers the bench and the number of the slot word after the STOP, or a cause of R98 with the number of the
slot word that meets it. -/
def runSlots (env : BlockEnv) (slot : Nat → Word) (slots : Nat) (a : Solver) :
    Nat → Nat → Nat → Bench → Except (Nat × Nat) (Bench × Nat)
  | 0, _, i, _ => .error (3, i)
  | fuel + 1, lastUnit, i, b =>
    if slots ≤ i then .error (7, i)
    else
      let w := slot i
      let unit := bitsOf w 16 15
      let op := bitsOf w 14 0
      if unit + 1 ≤ lastUnit then .error (3, i)
      else
        let r : Except Nat (Solver × List (Addr × Word) × Nat) :=
          match unit with
          | 0 => (bitSlot false op a b.solver).map fun v => (v, [], 1)
          | 1 => (bitSlot true op a b.solver).map fun v => (v, [], 1)
          | 2 => (wordSlot op a b.solver).map fun v => (v, [], 1)
          | _ => timerSlot env op a b.solver
        match r with
        | .error cause => .error (cause, i)
        | .ok (v, st, n) =>
          let b1 : Bench := ⟨v, b.stores ++ st, max b.cycles n⟩
          if bitOf w 17 then .ok (b1, i + 1) else runSlots env slot slots a fuel (unit + 1) (i + 1) b1

/-! ## SOLVE (R94–R97) -/

/-- The source of a stage entry (R80, R81). -/
def stageLoad (m : Mortar) (mem : TileMem) (x : Tile) (e : StageEntry) : Word :=
  match e.area with
  | 3 => x.load mem (BitVec.ofNat 17 e.index)
  | 4 => e.value
  | n => farLoad m x n e.index

/-- The cycles of a stage entry (R96); a far access takes 6–12, a free value. -/
def stageCycles (s : State) (e : StageEntry) : Nat :=
  match e.area with
  | 3 => 2
  | 4 => 1
  | _ => farCycles s

/-- The word a stage entry reads of memory (R80, R143). -/
def stageReads (e : StageEntry) : List MemRead :=
  match e.area with
  | 3 => [.data (BitVec.ofNat 17 e.index)]
  | 4 => []
  | n => [.far n e.index]

/-- The cell words that the slot words of a course read (R91). -/
def courseReads (env : BlockEnv) (slot : Nat → Word) (first n : Nat) : List MemRead :=
  (List.range n).flatMap fun j =>
    let w := slot (first + j)
    if bitsOf w 16 15 = 3 then
      (cellReads (bitsOf w 14 11) (bitsOf w 2 0)).map fun i => .data (BitVec.ofNat 17 (env.cellBase + 8 * bitsOf w 10 3 + i))
    else []

/-- The stage entries of a block, in list order. -/
def stageList (h : BlockHeader) (code : Nat → Word) : List StageEntry :=
  (List.range h.stages).map fun i => stageOf (code (6 + 2 * i)) (code (7 + 2 * i))

/-- The number of the first stage entry that is not legal, given the entries before it (R81). -/
def stageFault (h : BlockHeader) (i : Nat) : List Nat → List StageEntry → Option Nat
  | _, [] => none
  | used, e :: es => if stageLegal h used e then stageFault h (i + 1) (e.bed :: used) es else some i

/-- Every stage entry is legal, given the entries before it (R81). -/
def stagesLegal (h : BlockHeader) (es : List StageEntry) : Bool := (stageFault h 0 [] es).isNone

/-- The hand-off at return (R94): g0, g1 and S, with 3 cycles (R96). -/
def handOff (r : Ret) : Ret :=
  let v := r.cpu.solver
  let u := (r.cpu.setReg 0 (word (flagNat v.rlo0 + 2 * flagNat v.rlo1))).setReg 1 v.wa
  { r with cpu := { u with solver := { v with next := none }, fl := { u.fl with s := u.fl.s || v.sat } }, cycles := r.cycles + 3 }

/-- The illegal-course trap with its cause and the code address of the offending word (R98): the block is given up. -/
def illegalCourse (u : Cpu) (cause cycles at_ : Nat) : Ret :=
  { cpu := { u with solver := { u.solver with next := none } }, cycles := cycles, trap := some (2, cause)
    trapAddr := BitVec.ofNat 17 at_ }

/-- A retire step after which the solver stands at `p`. -/
def standsAt (u : Cpu) (p : BlockPos) (r : Ret) : Ret :=
  { r with cpu := { u with solver := { u.solver with next := some p } }, hold := true }

/-- One retire step of a SOLVE from a position of its block (R97, R147): a stage entry, a course or a write-back. `issue` is the
cycles of issue and header, which the first step holds; the last one holds the return. `base` is the block's address. -/
def solveAt (s : State) (t : Nat) (x : Tile) (u : Cpu) (h : BlockHeader) (base : Nat) (code : Nat → Word) (issue : Nat) :
    BlockPos → Ret
  | .stage i =>
    let e := stageOf (code (6 + 2 * i)) (code (7 + 2 * i))
    let u1 := { u with solver := u.solver.setWord e.bed (stageLoad s.work.mortar (s.mem t) x e) }
    standsAt u1 (if i + 1 < h.stages then .stage (i + 1) else .course 0 0)
      { cpu := u1, cycles := issue + stageCycles s e, folds := if e.area ≤ 2 then [farLoadItem e.area e.index] else []
        reads := readsCode (base + 6 + 2 * i) 2 ++ stageReads e }
  | .course i k =>
    let env : BlockEnv := ⟨h.cellBase, h.cells, x.load (s.mem t), s.work.count, s.tick.period⟩
    let slot (j : Nat) : Word := code (6 + 2 * h.stages + j)
    let slotAt (j : Nat) : Nat := base + 6 + 2 * h.stages + j
    match runSlots env slot h.slots u.solver 5 0 k ⟨u.solver, [], 1⟩ with
    | .error (cause, j) =>
      { illegalCourse u cause issue (slotAt (if cause = 7 then k else j)) with reads := readsCode (slotAt k) (min 4 (h.slots - k)) }
    | .ok (b, k') =>
      let u1 := { u with solver := b.solver }
      let r : Ret := { cpu := u1, stores := b.stores, cycles := issue + b.cycles
                       reads := readsCode (slotAt k) (k' - k) ++ courseReads env slot k (k' - k) }
      if i + 1 < h.courses then standsAt u1 (.course (i + 1) k') r
      else if k' ≠ h.slots then { illegalCourse u1 7 r.cycles (slotAt k') with stores := b.stores, reads := r.reads }
      else if (stageList h code).any StageEntry.wb then standsAt u1 (.writeBack 0) r
      else handOff r
  | .writeBack i =>
    let l := (stageList h code).filter StageEntry.wb
    match l[i]? with
    | none => handOff { cpu := u, cycles := issue }
    | some e =>
      let v := u.solver.bedWord e.bed
      let r : Ret :=
        if e.area = 3 then { cpu := u, stores := [(BitVec.ofNat 17 e.index, v)] }
        else { cpu := u, held := some (Tbl.set none x.held (heldKey e.area e.index) (some v)), cycles := 12 }
      if i + 1 < l.length then standsAt u (.writeBack (i + 1)) r else handOff r

/-- One retire step of a SOLVE (R94, R97, R98): at entry the header and every stage entry are judged before the bed is used, the
units take g0 and g1 and the bed is cleared; after that the step at the position reached. DESIGN CHOICE: a block that runs past
the last word of tile code memory goes on at word 0. -/
def solveRet (s : State) (t : Nat) (x : Tile) (u : Cpu) (block : Word) : Ret :=
  let mem := s.mem t
  let base := (addrOf block).toNat
  let code (i : Nat) : Word := Tbl.get 0 mem.code ((base + i) % 131072)
  let h := headerOf code
  match headerFault code with
  | some i => { illegalCourse u 1 4 (base + i) with reads := readsCode base 6 }
  | none =>
    match u.solver.next with
    | some p => solveAt s t x u h base code 0 p
    | none =>
      let head := readsCode base (6 + 2 * h.stages)
      match stageFault h 0 [] (stageList h code) with
      | none =>
        let entry : Solver := { wa := u.reg 1, rlo0 := bitOf (u.reg 0) 0, rlo1 := bitOf (u.reg 0) 1 }
        let r := solveAt s t x { u with solver := entry } h base code 4 (if h.stages = 0 then .course 0 0 else .stage 0)
        { r with reads := head ++ r.reads }
      | some i => { illegalCourse u 2 4 (base + 6 + 2 * i) with reads := head }

/-- SOLVE block (R94, R97). -/
def execSolve (t : Nat) (block : Word) (s : State) : Out :=
  .next (runSteps t (header 0o64 0 0 0) block Cpu.solving (fun s x u => solveRet s t x u block) (Config.windowCycles + 1) s)

end Sys2Proof.Machine
end

