-- ==== Sys2Proof/Machine/Debug.lean ====
section
/-!
DEFINITION. The restarts that revoke, and the debug port's writes and breakpoints (R162–R165, R192, R193).
-/

namespace Sys2Proof.Machine

/-- FOREMAN_RESTART (R165): everything held under identity 0 is revoked in the same cycle. -/
def execForemanRestart (s : State) : Out := .next (s.revoke 0)

/-- The debug port's resources are revoked and the port closes (R165). -/
def execDebugPortReset (s : State) : Out := .next { (s.revoke 3) with debugOpen := none }

/-- Whether a tile is stopped for the debugger (R162). -/
def Tile.isStopped (x : Tile) : Bool := match x.activation with | some a => a.stopped | none => false

/-- Whether a tile's activation is open (R193): a breakpoint has stopped it, or stops it at the close that is due. -/
def Tile.isOpen (x : Tile) : Bool :=
  match x.activation with | some a => a.opened || decide (a.stopDue.any fun k => k ≠ .step) | none => false

/-- A debugger's register write on a core state (R163). -/
def Cpu.debugWrite (c : Cpu) (v : Word) : DebugReg → Cpu
  | .g r => c.setReg r v
  | .pc => { c with pc := addrOf v }
  | .fl => { c with fl := Flags.ofWord v }
  | .ct => { c with ct := v }
  | .rc => { c with rc := v }

/-- DEBUG_REGISTER_WRITE (R162, R163): on a stopped tile, to the main core, the checkpoint file and the checker. -/
def execDebugRegisterWrite (t : Nat) (r : DebugReg) (v : Word) (s : State) : Out :=
  let s0 := if s.tileCount ≤ t then s else s.settle t
  let x := s0.tile t
  if s.debugOpen.isNone ∨ s.tileCount ≤ t ∨ !x.isStopped then .next s0
  else
    .next (s0.setTile t { x with cpu := x.cpu.debugWrite v r, checker := x.checker.debugWrite v r
                                 checkpoint := { x.checkpoint with cpu := x.checkpoint.cpu.debugWrite v r } })

/-- DEBUG_MEMORY_WRITE (R163): directly to the shared tile memory, not folded. -/
def execDebugMemoryWrite (t : Nat) (code : Bool) (addr : Addr) (v : Word) (s : State) : Out :=
  let s0 := if s.tileCount ≤ t then s else s.settle t
  if s.debugOpen.isNone ∨ s.tileCount ≤ t then .next s0
  else if code then .next (s0.writeCode t addr.toNat v)
  else .next (s0.writeData t addr.toNat v)

/-- Whether an armed breakpoint names a tile and address (R197): HD_BPA(i).EN with HD_BPT(i). -/
def State.breakpointAt (s : State) (t : Nat) (addr : Addr) : Bool :=
  (List.range 8).any fun i =>
    let a := s.setupOr (0o000_430 + i) 0
    bitOf a 17 && decide (bitsOf a 16 0 = addr.toNat) && decide (bitsOf (s.setupOr (0o000_440 + i) 0) 4 0 = t)

/-- DEBUG_BREAKPOINT (R192, R193): an armed debug breakpoint stops the named tile before the instruction. -/
def execDebugBreakpoint (t : Nat) (addr : Addr) (s : State) : Out :=
  let s0 := s.settle t
  if s.tileCount ≤ t ∨ !(s0.tile t).running ∨ !s0.breakpointAt t addr ∨ !s0.breakable t ∨ (s0.tile t).cpu.pc ≠ addr then
    .next s0
  else .next (s0.breakStop t .debug)

end Sys2Proof.Machine
end

