-- ==== Sys2Proof/Machine/Rings.lean ====
section
/-!
DEFINITION. Descriptor rings, mailboxes and locks as their registers and doorbells drive them (R266–R294).
-/

namespace Sys2Proof.Machine

/-! ## Ring ownership and reset (R274, R279) -/

/-- SIZE of a ring: 2^LOG2S (R277). -/
def Ring.size (g : Ring) : Nat := 2 ^ g.log2s

/-- HL_CFG.FMR bit r as of the last Start: the ring is the foreman's (R266). -/
def State.foremanRing (s : State) (r : Nat) : Bool := bitOf (s.setupStartOr 0o001_406 0o000_777) r

/-- Take a free ring: the writer becomes the owner and all four indices are set to 0 (R274). -/
def Ring.acquire (g : Ring) (m : Nat) : Ring :=
  { g with en := true, owner := m, cpi := 0, cci := 0, qpi := 0, qci := 0, completions := [] }

/-- RING_ENABLE (R266, R274): EN = 1 while OWNER is 63. The two hosts alone can own a ring, and the host link never takes one the
foreman claims. -/
def execRingEnable (m r : Nat) (s : State) : Out :=
  if 8 < r ∨ !s.reaches m then .next s
  else
    let g := s.ring r
    if g.owner = m then .next s
    else if g.owner ≠ noOwner ∨ 1 < m ∨ (m = 1 ∧ s.foremanRing r) then .next s.ignore
    else .next (s.setRing r (g.acquire m))

/-- Post ABORTED for descriptors posted and not fetched, given their tags in ring order (R279). -/
def State.abortUnfetched (s : State) (r : Nat) : Nat → List Word → State
  | _, [] => s
  | count, tag :: tags =>
    (s.postCompletion r ⟨count % (s.ring r).size, tag, stAborted, 0, 0, 0, []⟩).abortUnfetched r (count + 1) tags

/-- The tickets of an arrival queue. -/
def queueTickets (r : Nat) (q : List Req) : List Ticket := q.map fun x => ⟨r, x.origin, x.desc.tag⟩

/-- A ring reset (R279, R280): fetching stops, every descriptor posted and not completed completes ABORTED,
the tile queue too; a page under write runs to its end first. -/
def State.resetRing (s : State) (r : Nat) (tags : List Word) : State :=
  let g := s.ring r
  let un := g.unfetched
  let waiting := queueTickets r g.queue
  let s1 := s.setRing r { g with busy := true, queue := [], flight := g.flight ++ waiting,
                                 aborts := un + waiting.length + g.flight.length }
  let mine (k : Ticket) : Bool := k.ring == r
  let stop := (g.flight.filter fun k => !s1.uninterruptible k) ++ waiting
  (stop.foldl (fun s k => s.complete k (s1.abortReply k)) (s1.withdraw mine)).abortUnfetched r g.cci (tags.take un)

/-- The ring is free again, its binding ended (R274, R466). -/
def State.freeRing (s : State) (r : Nat) : State :=
  let g := s.ring r
  (s.setRing r { g with en := false, owner := noOwner, disabling := false }).unbind r

/-- The end of a reset (R279): CCI is set equal to CPI, RBUSY clears and the event is recorded. -/
def State.endReset (s : State) (r : Nat) : State :=
  let g := s.ring r
  let s1 := (s.setRing r { g with busy := false, cci := g.cpi, aborts := 0 }).event 0o001_300 0 r r g.aborts
  if g.disabling then s1.freeRing r else s1

/-- RING_RESET (R279): the owner's write of RESET = 1. -/
def execRingReset (m r : Nat) (tags : List Word) (s : State) : Out :=
  if 8 < r ∨ !s.reaches m then .next s
  else if (s.ring r).owner ≠ m then .next s.ignore
  else if (s.ring r).busy then .next s
  else .next (s.resetRing r tags)

/-- RING_RESET_END (R279): the last abort completion has been posted. -/
def execRingResetEnd (r : Nat) (s : State) : Out :=
  if 8 < r ∨ !(s.ring r).busy ∨ (s.ring r).flight ≠ [] then .next s else .next (s.endReset r)

/-- RING_DISABLE (R274): the owner's EN = 0 resets the ring, and it then becomes free. -/
def execRingDisable (m r : Nat) (tags : List Word) (s : State) : Out :=
  if 8 < r ∨ !s.reaches m then .next s
  else if (s.ring r).owner ≠ m then .next (if (s.ring r).owner = noOwner then s else s.ignore)
  else
    let s1 := if (s.ring r).busy then s else s.resetRing r tags
    let s2 := s1.setRing r { (s1.ring r) with disabling := true }
    if (s2.ring r).flight = [] then .next (s2.endReset r) else .next s2

/-! ## Doorbells and fetching (R268, R277, R278) -/

/-- A write of CPI clamped by the credits (R278). -/
def clampCpi (size qci cpi v : Nat) : Nat :=
  let room := min ((v + 65536 - qci) % 65536) size
  if (cpi + 65536 - qci) % 65536 ≤ room then (qci + room) % 65536 else cpi

/-- A write of QCI clamped to the completions written (R278). -/
def clampQci (qpi qci v : Nat) : Nat :=
  (qci + min ((v + 65536 - qci) % 65536) ((qpi + 65536 - qci) % 65536)) % 65536

/-- A write to CPI (R278, R279): the owner's; ignored while RBUSY is 1. -/
def State.writeCpi (s : State) (m r : Nat) (v : Word) : State :=
  if 8 < r ∨ !s.reaches m then s
  else
    let g := s.ring r
    if g.owner ≠ m then s.ignore
    else if g.busy then s
    else s.setRing r { g with cpi := clampCpi g.size g.qci g.cpi (bitsOf v 15 0) }

/-- COMMAND_DOORBELL (R278, R279). -/
def execCommandDoorbell (m r : Nat) (v : Word) (s : State) : Out := .next (s.writeCpi m r v)

/-- A write to QCI by the owner consumes completions (R278). -/
def State.writeQci (s : State) (m r : Nat) (v : Word) : State :=
  if 8 < r ∨ !s.reaches m then s
  else
    let g := s.ring r
    if g.owner ≠ m then s.ignore
    else
      let q := clampQci g.qpi g.qci (bitsOf v 15 0)
      s.setRing r { g with qci := q, completions := g.completions.drop ((q + 65536 - g.qci) % 65536) }

/-- COMPLETION_DOORBELL (R278). -/
def execCompletionDoorbell (m r : Nat) (v : Word) (s : State) : Out := .next (s.writeQci m r v)

/-- The command codes each engine defines (R276 and the chapters' command tables). -/
def definedCodes (r : Nat) : List Nat :=
  [0o220, 0o221, 0o222] ++
  match r with
  | 0 => [0o030, 0o040, 0o041, 0o042, 0o044, 0o045, 0o046, 0o047, 0o050, 0o052, 0o053, 0o054, 0o055, 0o070,
          0o100, 0o140, 0o141, 0o142, 0o143, 0o150, 0o223, 0o224, 0o225, 0o226, 0o227, 0o230]
  | 1 => [0o060, 0o061, 0o062]
  | 2 => [0o120, 0o121, 0o122]
  | 3 => [0o130, 0o131]
  | 4 => [0o170, 0o171, 0o172]
  | 5 => [0o200, 0o201, 0o202, 0o203, 0o204, 0o205, 0o206]
  | 6 => [0o160, 0o161, 0o162]
  | 7 => [0o210, 0o211, 0o212, 0o213]
  | 8 => [0o110, 0o111, 0o112]
  | _ => []

/-- Fetching stops while the pending queue of the CAN channel that the next descriptor names is full (R320). -/
def State.fetchWaits (s : State) (r : Nat) (d : Desc) : Bool :=
  r == 2 && d.code == 0o000_120 && decide (16 ≤ (Tbl.get {} s.cans (bitsOf d.a0 2 0)).pending.length)

/-- DESCRIPTOR_FETCH (R268, R276, R277): the next posted descriptor in ring order, at most 8 ahead of
execution; a CODE the engine does not define completes REFUSED with CODE 0. -/
def execDescriptorFetch (r : Nat) (d : Desc) (s : State) : Out :=
  let g := s.ring r
  if 8 < r ∨ !g.en ∨ g.busy ∨ g.unfetched = 0 ∨ 8 ≤ (g.queue.filter fun q => !Req.isTile q).length ∨ s.fetchWaits r d then
    .next s
  else
    let slot := g.cci % g.size
    let g1 := { g with cci := (g.cci + 1) % 65536 }
    if d.code.toNat ∈ definedCodes r then
      .next (s.setRing r { g1 with queue := g1.queue ++ [⟨.ring slot, d, []⟩] })
    else
      let k : Ticket := ⟨r, .ring slot, d.tag⟩
      .next ((s.setRing r { g1 with flight := g1.flight ++ [k] }).complete k (.refused 0))

/-- RG_CTL as read (R281). -/
def Ring.ctl (g : Ring) : Word :=
  word (flagNat g.en * 2 ^ 17 + flagNat g.busy * 2 ^ 15 + flagNat g.rclm * 2 ^ 14 + g.log2s * 2 ^ 8 + g.owner)

/-- RCLM_READ (R274): the new owner's read of RG_CTL returns the reclaimed mark once and clears it. -/
def execRclmRead (m r : Nat) (s : State) : Out :=
  if 8 < r ∨ !s.reaches m then .next (s.answer 0)
  else
    let g := s.ring r
    let s1 := s.answer g.ctl
    if g.owner = m then .next (s1.setRing r { g with rclm := false }) else .next s1

/-! ## Mailboxes (R282–R288) -/

/-- One direction of a channel: false X to Y, true Y to X. -/
def Channel.dir (c : Channel) (y : Bool) : Direction := if y then c.dirY else c.dirX

/-- Write one direction. -/
def Channel.setDir (c : Channel) (y : Bool) (d : Direction) : Channel := if y then { c with dirY := d } else { c with dirX := d }

/-- The sender of a direction. -/
def Channel.sender (c : Channel) (y : Bool) : Nat := if y then c.bind.y else c.bind.x

/-- The receiver of a direction. -/
def Channel.receiver (c : Channel) (y : Bool) : Nat := if y then c.bind.x else c.bind.y

/-- Whether a master reaches a channel's registers: every register, or a channel the island is a side of
(R504). -/
def State.reachesChannel (s : State) (m : Nat) (c : Channel) : Bool :=
  s.reaches m || (decide (m = 2) && (decide (c.bind.x = 2) || decide (c.bind.y = 2)))

/-- MAILBOX_SEND (R284, R287): the named sender's SEND sets GO while GO is 0; SEQ counts, the receiver's
doorbell is raised, a crossing is marked. -/
def execMailboxSend (m n : Nat) (y : Bool) (s : State) : Out :=
  let c := s.channel n
  if 31 < n ∨ !s.reachesChannel m c then .next s
  else if !(c.bind.usable s.tileCount) ∨ c.sender y ≠ m ∨ (c.dir y).go then .next s.ignore
  else
    let (d, o) := sendDirection (c.dir y) (c.dir !y) (c.dir y).msg
    .next (((s.setChannel n ((c.setDir y d).setDir (!y) o)).doorbell (c.receiver y) (16 + n)).arriveMail
      (2 * n + flagNat y) (c.receiver y))

/-- A message is taken: GO clears and TAKEN is set (R284, R285). -/
def Direction.take (d : Direction) : Direction := { d with go := false, taken := true, lastTaken := true }

/-- A write of ACK (R284): the named receiver takes the message; the sender's doorbell is raised. -/
def State.acknowledge (s : State) (m n : Nat) (y : Bool) : State :=
  let c := s.channel n
  if 31 < n ∨ !s.reachesChannel m c then s
  else if !(c.bind.usable s.tileCount) ∨ c.receiver y ≠ m then s.ignore
  else if !(c.dir y).go then s
  else (s.setChannel n (c.setDir y (c.dir y).take)).doorbell (c.sender y) (16 + n)

/-- MAILBOX_ACK (R284). -/
def execMailboxAck (m n : Nat) (y : Bool) (s : State) : Out := .next (s.acknowledge m n y)

/-- A write of WD (R286): outcome 1 withdrawn, 2 already taken, 3 nothing pending; for the arch partner the result becomes ready
later. -/
def State.withdrawMessage (s : State) (m n : Nat) (y : Bool) : State :=
  let c := s.channel n
  let d := c.dir y
  if 31 < n ∨ !s.reachesChannel m c then s
  else if !(c.bind.usable s.tileCount) ∨ c.sender y ≠ m then s.ignore
  else if d.go ∧ d.orphan then s
  else
    let outcome := if d.go then 1 else if d.lastTaken then 2 else 3
    let later := decide (c.receiver y = 4)
    s.setChannel n (c.setDir y
      { d with go := false, wresReady := !later, wresPending := later, wresStale := false, wresOutcome := outcome,
               wresAsker := m })

/-- MAILBOX_WITHDRAW (R286): an ACK that reaches the channel in the same cycle wins, and comes first. -/
def execMailboxWithdraw (m n : Nat) (x : Withdrawal) (s : State) : Out :=
  let s1 := match x.ack with
    | some r => s.acknowledge r n x.y
    | none => s
  .next (s1.withdrawMessage m n x.y)

/-- WITHDRAW_RESULT (R286): the result for a partner receiver becomes ready. -/
def execWithdrawResult (n : Nat) (y : Bool) (s : State) : Out :=
  let c := s.channel n
  let d := c.dir y
  if 31 < n ∨ !d.wresPending then .next s
  else .next (s.setChannel n (c.setDir y { d with wresReady := true, wresPending := false, wresStale := false }))

/-- MB_WRES as read (R272, R289). -/
def Direction.wres (d : Direction) : Word :=
  if d.wresReady then word (2 ^ 17 + flagNat d.wresStale * 2 ^ 16 + d.wresOutcome) else 0

/-- WITHDRAW_RESULT_READ (R272): only a read by the asking master consumes the result. -/
def execWithdrawResultRead (m n : Nat) (y : Bool) (s : State) : Out :=
  let c := s.channel n
  let d := c.dir y
  if 31 < n ∨ !s.reachesChannel m c then .next (s.answer 0)
  else if d.wresReady ∧ d.wresAsker = m then
    .next ((s.answer d.wres).setChannel n (c.setDir y { d with wresStale := true }))
  else .next (s.answer d.wres)

/-- MB_CTLX or MB_CTLY as read (R289). -/
def Direction.ctl (d : Direction) : Word :=
  word (flagNat d.go * 2 ^ 17 + flagNat d.taken * 2 ^ 13 + flagNat d.crossed * 2 ^ 12 + flagNat d.orphan * 2 ^ 11 +
    flagNat d.rclmShow * 2 ^ 10 + d.seq)

/-- MAILBOX_RCLM_READ (R288): the sender's first read of its control register after its acquiring SEND returns
RCLM and clears it. -/
def execMailboxRclmRead (m n : Nat) (y : Bool) (s : State) : Out :=
  let c := s.channel n
  let d := c.dir y
  if 31 < n ∨ !s.reachesChannel m c then .next (s.answer 0)
  else if c.sender y = m ∧ d.rclmShow then
    .next ((s.answer d.ctl).setChannel n (c.setDir y { d with rclm := false, rclmShow := false }))
  else .next (s.answer d.ctl)

/-! ## Locks (R290–R294) -/

/-- A lock register as read by a master, given whether this read acquired it (R291). -/
def Lock.value (l : Lock) (got : Bool) : Word :=
  word (flagNat got * 2 ^ 17 + flagNat (decide (l.owner ≠ noOwner)) * 2 ^ 16 + flagNat l.rclm * 2 ^ 15 +
    flagNat (decide (l.claims ≠ [])) * 2 ^ 14 + (if l.rclm then l.prev * 64 else 0) + l.owner)

/-- The lowest identity of a list of readers (R292). -/
def lowest : List Nat → Nat
  | [] => noOwner
  | m :: ms => min m (lowest ms)

/-- Whether a master reaches the lock registers (R504). -/
def State.reachesLocks (s : State) (m : Nat) : Bool := s.reaches m || decide (m = 2)

/-- LOCK_READ (R290–R293): the masters that read lock k in one arbitration cycle. A free lock goes to the
lowest identity, with the reclaimed mark once; every reader is answered in the order listed, 0 where it reaches no lock. -/
def execLockRead (k : Nat) (readers : List Nat) (s : State) : Out :=
  let l := s.lock k
  let able := readers.filter s.reachesLocks
  let answers (f : Nat → Word) : List Word := readers.map fun m => if s.reachesLocks m then f m else 0
  if 63 < k ∨ able = [] then .next { s with lastRead := answers fun _ => 0 }
  else if l.owner ≠ noOwner then .next { s with lastRead := answers fun _ => l.value false }
  else
    let w := lowest able
    let won := { l with owner := w }
    let after := { won with rclm := false, prev := 0 }
    .next { (s.setLock k after) with lastRead := answers fun m => if m = w then won.value true else after.value false }

/-- A write to a lock register (R290, R294): the owner's releases the lock, and a queued tile claim takes it. -/
def State.writeLock (s : State) (m k : Nat) : State :=
  if 63 < k ∨ !s.reachesLocks m then s
  else if (s.lock k).owner ≠ m then s.ignore
  else s.setLock k (s.lock k).release

/-- LOCK_WRITE (R290, R294). -/
def execLockWrite (m k : Nat) (s : State) : Out := .next (s.writeLock m k)

/-- LK_BIND(k) as of the last boundary names a task (R294): EN and TASK, a value below 3 taken as 3. -/
def State.lockBound (s : State) (k task : Nat) : Bool :=
  let w := s.setupTickOr (0o001_300 + k) 0
  bitOf w 17 && decide (max 3 (bitsOf w 7 0) = task)

/-- A tile's claim at dispatch (R294): it takes a free lock, or queues behind another master. -/
def Lock.claim (l : Lock) (t : Nat) : Lock :=
  if l.owner = noOwner then { l with owner := t + 8 }
  else if l.owner = t + 8 ∨ t ∈ l.claims then l
  else { l with claims := l.claims ++ [t] }

/-- Claim every lock bound to a task for its tile (R294). -/
def State.claimLocks (s : State) (t task : Nat) : List Nat → State
  | [] => s
  | k :: ks => (if s.lockBound k task then s.setLock k ((s.lock k).claim t) else s).claimLocks t task ks

end Sys2Proof.Machine
end

