-- ==== Sys2Proof/Machine/Loader.lean ====
section
/-!
DEFINITION. The loader's proof: worst-case execution times (R57, R96, R150, R511), the acceptance conditions
1–9 (R58) and 10–17 (R173), over the tables and code words of a program.
-/

namespace Sys2Proof.Machine

/-! ## Costs -/

/-- What a path costs: cycles before the charges of R150, effects, words stored to tile data memory, and those of them whose
address the code does not fix. -/
structure Cost where
  cycles : Nat
  effects : Nat := 0
  stores : Nat := 0
  loose : Nat := 0
deriving DecidableEq, Repr

/-- No cost. -/
def Cost.zero : Cost := { cycles := 0 }

/-- Costs of consecutive parts. -/
def Cost.add (a b : Cost) : Cost := ⟨a.cycles + b.cycles, a.effects + b.effects, a.stores + b.stores, a.loose + b.loose⟩

/-- A cost repeated. -/
def Cost.times (n : Nat) (a : Cost) : Cost := ⟨n * a.cycles, n * a.effects, n * a.stores, n * a.loose⟩

/-- Whether one cost is nowhere above another. -/
def Cost.le (a b : Cost) : Bool :=
  decide (a.cycles ≤ b.cycles) && decide (a.effects ≤ b.effects) && decide (a.stores ≤ b.stores) && decide (a.loose ≤ b.loose)

/-- The costs of a set of paths, none below another. -/
abbrev Front := List Cost

/-- The front of a path that ends at once. -/
def Front.zero : Front := [Cost.zero]

/-- Add a path's cost to a front. -/
def Front.insert (f : Front) (c : Cost) : Front :=
  if f.any (fun d => c.le d) then f else c :: f.filter fun d => !d.le c

/-- The paths of either front. -/
def Front.union (f g : Front) : Front := g.foldl Front.insert f

/-- The paths of a front after a fixed part. -/
def Front.after (f : Front) (c : Cost) : Front := f.map c.add

/-- A path of one front, then a path of the other. -/
def Front.seq (f g : Front) : Front := f.foldl (fun acc c => Front.union acc (Front.after g c)) []

/-- Quotient rounded up. -/
def ceilDiv (a b : Nat) : Nat := (a + b - 1) / b

/-- A path's cycles with the charges of R150. -/
def Cost.charged (c : Cost) : Nat :=
  c.cycles + 6 * c.effects + 6 * ceilDiv c.cycles 2042 + 6 * ceilDiv c.stores 512 + ceilDiv c.stores 8

/-- The largest of a measure over the paths of a front. -/
def Front.most (f : Front) (measure : Cost → Nat) : Nat := (f.map measure).foldl max 0

/-- The largest charged cost of a front. -/
def Front.worst (f : Front) : Nat := f.most Cost.charged

/-! ## Schedule tables (R54) -/

/-- A slot entry from its eight words (R54). -/
def slotOf (ws : List Word) : SlotEntry :=
  let w (i : Nat) : Word := ws.getD i 0
  { kind := bitsOf (w 0) 17 15, task := bitsOf (w 0) 7 0, period := bitsOf (w 1) 12 0, phase := bitsOf (w 2) 12 0
    entry := bitsOf (w 3) 16 0, offset := joinNat (w 4) (w 5), budget := joinNat (w 6) (w 7) }

/-- Whether an entry has its eight words and 0 in every reserved bit (R54). -/
def entryWhole (ws : List Word) : Bool :=
  let w (i : Nat) : Word := ws.getD i 0
  decide (ws.length = 8) && decide (bitsOf (w 0) 14 8 = 0) && decide (bitsOf (w 1) 17 13 = 0) && decide (bitsOf (w 2) 17 13 = 0) &&
    decide (bitsOf (w 3) 17 17 = 0)

/-- The eight words of a slot entry (R54). -/
def slotWords (e : SlotEntry) : List Word :=
  [word (e.kind % 8 * 2 ^ 15 + e.task % 256), word (e.period % 2 ^ 13), word (e.phase % 2 ^ 13), word (e.entry % 2 ^ 17),
   lowWord e.offset, highWord e.offset, lowWord e.budget, highWord e.budget]

/-- The end entry (R54). -/
def endEntry : List Word := word (7 * 2 ^ 15) :: List.replicate 7 0

/-- A table in the layout of R54: its entries and the end entry. -/
def tableWords (es : List SlotEntry) : List Word := es.flatMap slotWords ++ endEntry

/-- The entries of a table before its end entry, at most `n`, and whether the end entry stands behind them (R54). -/
def rawSlots : Nat → List Word → List (List Word) × Bool
  | 0, ws => ([], decide (bitsOf (ws.headD 0) 17 15 = 7))
  | n + 1, ws =>
    if ws = [] then ([], false)
    else if bitsOf (ws.headD 0) 17 15 = 7 then ([], true)
    else
      let r := rawSlots n (ws.drop 8)
      (ws.take 8 :: r.1, r.2)

/-- The slot entries of a table (R54). -/
def tableSlots (ws : List Word) : List SlotEntry := (rawSlots 64 ws).1.map slotOf

/-! ## The program the loader reads -/

/-- What the loader proves: code words per tile, the tiles it gives code to, tables, task declarations, proof data and the
level. -/
structure ProgView where
  code : Nat → Nat → Word
  given : List Nat
  tables : List TileTables
  tasks : List TaskDecl
  proof : ProofData
  level : Nat

/-- The first word of an entry list that matches. -/
def findBound (l : List (Nat × Nat × Nat)) (t a : Nat) : Option Nat :=
  (l.find? fun e => e.1 == t && e.2.1 == a).map fun e => e.2.2

/-- The write set of a task number. -/
def ProgView.writesOf (p : ProgView) (task : Nat) : List WordRange :=
  match p.tasks.find? fun d => d.task == task with | some d => d.writes | none => []

/-- Words in the write set of a task. -/
def ProgView.writeWords (p : ProgView) (task : Nat) : Nat := ((p.writesOf task).map WordRange.len).foldl (· + ·) 0

/-! ## SOLVE blocks (R79–R99) -/

/-- The words of a course block at a code address of a tile. -/
def ProgView.block (p : ProgView) (t b i : Nat) : Word := p.code t ((b + i) % 131072)

/-- The cycles and stores of one slot word on the worst path (R87, R91, R96). -/
def slotCost (w : Word) : Nat × Nat :=
  if bitsOf w 16 15 = 3 then
    let top := bitsOf w 14 11
    (if top ≤ 4 then 3 else if top ≤ 11 then 2 else 1, (cellWritten top (bitsOf w 2 0)).length)
  else (1, 0)

/-- The cost of a block's courses from its slot words: each course its largest slot, at least 1 (R96). -/
def coursesCost (code : Nat → Word) : Nat → Nat → Nat → Cost → Cost
  | 0, _, _, acc => acc
  | n + 1, i, cur, acc =>
    let w := code i
    let (cy, st) := slotCost w
    let cur' := max cur cy
    if bitOf w 17 then coursesCost code n (i + 1) 1 (acc.add { cycles := cur', stores := st })
    else coursesCost code n (i + 1) cur' (acc.add { cycles := 0, stores := st })

/-- The cost of a stage entry and its write-back (R96). -/
def stageCost (e : StageEntry) : Cost :=
  let load := if e.area = 3 then 2 else if e.area = 4 then 1 else 12
  let wb := if !e.wb then 0 else if e.area = 3 then 1 else 12
  { cycles := load + wb, stores := if e.wb ∧ e.area = 3 then 1 else 0 }

/-- The cost of one SOLVE of a block (R96); of a block with an illegal header, its entry. -/
def solveCost (code : Nat → Word) : Cost :=
  match readHeader code with
  | none => { cycles := 4 }
  | some h => coursesCost code h.slots (6 + 2 * h.stages) 1 (((stageList h code).map stageCost).foldl Cost.add { cycles := 7 })

/-- The addresses of tile data memory that one SOLVE of a block stores to (R91, R95). -/
def solveStores (code : Nat → Word) : List Nat :=
  match readHeader code with
  | none => []
  | some h =>
    (((stageList h code).filter fun e => e.wb && e.area == 3).map StageEntry.index) ++
      (List.range h.slots).flatMap fun j =>
        let w := code (6 + 2 * h.stages + j)
        if bitsOf w 16 15 = 3 then
          (cellWritten (bitsOf w 14 11) (bitsOf w 2 0)).map fun i => h.cellBase + 8 * bitsOf w 10 3 + i
        else []

/-- The cause of R98 that the courses left of a block meet, from slot word `i` on (R99). -/
def coursesCause (env : BlockEnv) (slot : Nat → Word) (slots : Nat) : Nat → Nat → Solver → Option Nat
  | 0, i, _ => if i = slots then none else some 7
  | n + 1, i, v =>
    match runSlots env slot slots v 5 0 i ⟨v, [], 1⟩ with
    | .error e => some e.1
    | .ok (b, i1) => coursesCause env slot slots n i1 b.solver

/-- The cause of R98 that a block meets whatever the data, none for a legal block (R99): its courses are run
on an empty bed, since neither legality nor stack depth depends on data (R86). -/
def blockCause (code : Nat → Word) : Option Nat :=
  match readHeader code with
  | none => some 1
  | some h =>
    if stagesLegal h (stageList h code) then
      coursesCause ⟨h.cellBase, h.cells, fun _ => 0, 0, 0⟩ (fun i => code (6 + 2 * h.stages + i)) h.slots h.courses 0 {}
    else some 2

/-! ## Instructions as the loader reads them -/

/-- Where control goes after an instruction: addresses of the same activation, callees, or an end. -/
structure Flow where
  next : List Nat
  callees : List Nat := []
  /-- An indirect branch without a complete jump table. -/
  unknown : Bool := false
  /-- A backward branch of R511: BR, BRA, JCC or LOOP to an address at or below its own. -/
  back : Option Nat := none

/-- The address after an instruction. -/
def afterInstr (pc : Nat) (w : Word) : Nat := (pc + lengthOf w) % 131072

/-- The words an instruction stores to tile data memory (R75). -/
def instrStores (w : Word) : Nat :=
  match bitsOf w 17 12, bitsOf w 5 0 with
  | 0o22, _ => 1
  | 0o24, _ => 2
  | 0o25, 0 => 1
  | 0o25, 2 => 2
  | 0o27, 1 | 0o27, 3 => 1
  | 0o33, _ => 1
  | 0o34, 1 => 1
  | 0o63, _ => 1
  | 0o66, 1 => 1
  | 0o66, 3 => 2
  | _, _ => 0

/-- Effects of an instruction (R121). -/
def instrEffects (w : Word) : Nat :=
  match bitsOf w 17 12, bitsOf w 5 0 with
  | 0o00, 1 => 1
  | 0o40, 1 | 0o40, 3 | 0o40, 5 => 1
  | 0o65, _ => 1
  | _, _ => 0

/-- The cycles an instruction is charged (R57, R111–R117), but for END, SOLVE, REP and traps. -/
def instrCycles (w : Word) : Nat :=
  match bitsOf w 17 12, bitsOf w 5 0 with
  | 0o00, 2 => 2
  | 0o00, 3 => 10
  | 0o14, _ => 2
  | 0o15, _ => 19
  | 0o23, _ | 0o24, _ => 2
  | 0o25, 2 | 0o25, 3 => 2
  | 0o26, _ => 2
  | 0o30, _ | 0o31, _ | 0o32, _ | 0o33, _ | 0o34, _ | 0o35, _ => 2
  | 0o40, _ => 12
  | 0o62, _ | 0o63, _ => 2
  | 0o65, 0 => 20
  | 0o65, _ => 12
  | 0o66, 2 | 0o66, 3 => 2
  | _, _ => 1

/-- The cost of an instruction for itself: only STA and STDA name the address they store to (R75, R116). -/
def instrCost (w : Word) : Cost :=
  { cycles := instrCycles w, effects := instrEffects w, stores := instrStores w
    loose := if bitsOf w 17 12 = 0o66 then 0 else instrStores w }

/-- The relative target of a branch word at `pc` (R107). -/
def relTargetOf (pc : Nat) (w : Word) (bits : Nat) : Nat :=
  let off := w.toNat % 2 ^ bits
  let signed : Int := if off < 2 ^ (bits - 1) then off else (off : Int) - 2 ^ bits
  (((pc + 1 : Int) + signed) % 131072).toNat

/-- The declared jump table of the indirect branch at an address. -/
def ProgView.jumpTable (p : ProgView) (t pc : Nat) : List Nat :=
  match p.proof.jumps.find? fun e => e.1 == t && e.2.1 == pc with | some e => e.2.2 | none => []

/-- A branch to `d`, with the addresses control may take. -/
def branchFlow (pc d : Nat) (next : List Nat) : Flow := { next := next, back := if d ≤ pc then some d else none }

/-- The flow of the instruction at `pc` on a tile. After an illegal REP its target runs once (R130); a reserved opcode's
emulation returns behind it. -/
def flowOf (p : ProgView) (t pc : Nat) : Flow :=
  let w := p.code t pc
  let w2 := p.code t ((pc + 1) % 131072)
  let n := afterInstr pc w
  let target := w2.toNat % 131072
  if (reservedDetail w w2).isSome then { next := [n] }
  else
    match bitsOf w 17 12, bitsOf w 5 0 with
    | 0o00, 1 | 0o00, 2 | 0o00, 3 => { next := [] }
    | 0o30, _ => let d := relTargetOf pc w 9; branchFlow pc d (if bitsOf w 11 9 = 0 then [d] else [n, d])
    | 0o31, _ => let d := relTargetOf pc w 9; branchFlow pc d [n, d]
    | 0o32, _ => let d := relTargetOf pc w 12; branchFlow pc d [d]
    | 0o33, _ => { next := [n], callees := [relTargetOf pc w 12] }
    | 0o34, 0 => { next := p.jumpTable t pc, unknown := (p.jumpTable t pc).isEmpty }
    | 0o34, _ => { next := [n], callees := p.jumpTable t pc, unknown := (p.jumpTable t pc).isEmpty }
    | 0o35, _ => let d := relTargetOf pc w 12; branchFlow pc d [n, d]
    | 0o36, _ => { next := [if noPrefix (p.code t n) then n else afterInstr n (p.code t n)] }
    | 0o62, c => branchFlow pc target (if c = 0 then [target] else [n, target])
    | 0o63, _ => { next := [n], callees := [target] }
    | _, _ => { next := [n] }

/-- Whether the divide at an address may take trap 4: its divisor is not proved non-zero (R57). -/
def ProgView.mayDivideByZero (p : ProgView) (t a : Nat) : Bool :=
  bitsOf (p.code t a) 17 12 == 0o15 && !(p.proof.nonZero.any fun e => e.1 == t && e.2 == a)

/-- Whether a word is a stack instruction (R118). -/
def isStack (w : Word) : Bool :=
  match bitsOf w 17 12, bitsOf w 5 0 with
  | 0o00, 2 | 0o25, _ | 0o33, _ | 0o34, 1 | 0o63, _ => true
  | _, _ => false

/-- The vectors that the instruction at an address may take, its REP's target included (R130). DESIGN CHOICE: the handlers of
traps 2 and 5, which a proved program takes only through a fault, are read where the package holds code for them. -/
def ProgView.vectorsAt (p : ProgView) (t a : Nat) : List Nat :=
  let at_ (a : Nat) : List Nat :=
    let w := p.code t a
    let w2 := p.code t ((a + 1) % 131072)
    if (reservedDetail w w2).isSome then [0]
    else (if p.mayDivideByZero t a then [4] else []) ++ (if isStack w && p.code t 0o50 != 0 then [5] else []) ++
      (if bitsOf w 17 12 = 0o64 ∧ p.code t 0o20 ≠ 0 then [2] else [])
  let n := (a + 1) % 131072
  let own := at_ a
  if bitsOf (p.code t a) 17 12 = 0o36 ∧ own = [] then (if noPrefix (p.code t n) then [1] else at_ n) else own

/-- Addresses reachable from a work list by a successor function. -/
def reachBy (succ : Nat → List Nat) : Nat → List Nat → List Nat → List Nat
  | 0, _, seen => seen
  | _, [], seen => seen
  | fuel + 1, a :: rest, seen =>
    if a ∈ seen then reachBy succ fuel rest seen else reachBy succ fuel (succ a ++ rest) (a :: seen)

/-- The fuel of a code walk: every address, each with at most a jump table of successors. -/
def walkFuel : Nat := 2 ^ 20

/-- The code a slot can reach: from its entry through calls, trap handlers and the targets of REP. -/
def slotCode (p : ProgView) (t entry : Nat) : List Nat :=
  reachBy (fun a =>
    let f := flowOf p t a
    f.next ++ f.callees ++ (p.vectorsAt t a).map (8 * ·) ++
      (if bitsOf (p.code t a) 17 12 = 0o36 then [(a + 1) % 131072] else [])) walkFuel [entry] []

/-- The code of one routine within an address range, without its callees. -/
def routineCode (p : ProgView) (t lo hi start : Nat) : List Nat :=
  reachBy (fun a => (flowOf p t a).next.filter fun d => decide (lo ≤ d) && decide (d ≤ hi)) walkFuel [start] []

/-- The loops among addresses: head and last backward branch (R511). -/
def loopsOf (p : ProgView) (t : Nat) (code : List Nat) : List (Nat × Nat) :=
  let backs := code.filterMap fun a => ((flowOf p t a).back).map fun d => (d, a)
  let heads := (backs.map Prod.fst).eraseDups
  heads.map fun h => (h, ((backs.filter fun b => b.1 == h).map Prod.snd).foldl max h)

/-- Whether the loops of a slot are well formed (R511, code 4): each bounded, nested or apart, and entered at
their heads only. -/
def loopsOk (p : ProgView) (t : Nat) (code : List Nat) : Bool :=
  let ls := loopsOf p t code
  ls.all (fun l => (findBound p.proof.loops t l.1).isSome) &&
  ls.all (fun l => ls.all fun m =>
    decide (l.2 < m.1) || decide (m.2 < l.1) || (decide (l.1 ≤ m.1) && decide (m.2 ≤ l.2)) ||
      (decide (m.1 ≤ l.1) && decide (l.2 ≤ m.2))) &&
  code.all fun a => (flowOf p t a).next.all fun d =>
    ls.all fun l => !(decide (l.1 < d) && decide (d ≤ l.2)) || (decide (l.1 ≤ a) && decide (a ≤ l.2))

/-! ## Worst paths (R57, R511) -/

/-- Fronts of the addresses walked. -/
abbrev Fronts := List (Nat × Front)

/-- The front of an address in a table of fronts; an unlisted address ends there. -/
def frontAt (tbl : Fronts) (a : Nat) : Front :=
  match tbl.find? fun e => e.1 == a with | some e => e.2 | none => Front.zero

/-- The cost of taking a trap: 12 cycles and the sixteen words of its frame (R131, R132). -/
def trapCost : Cost := { cycles := 12, stores := 16 }

/-- A reserved word (R57, R136): its declared emulation, else the handler at vector 0; of a package of a higher level, none
without a declaration. -/
def reservedFront (p : ProgView) (enter : Nat → Option Front) (w : Word) : Option Front :=
  match p.proof.emulated.find? fun e => e.1 == w with
  | some e => some [{ trapCost with cycles := 12 + e.2 }]
  | none => if 1 < p.level then none else (enter 0).map fun f => Front.after f trapCost

/-- An instruction run once, its trap 4 with it. -/
def onceFront (p : ProgView) (t : Nat) (enter : Nat → Option Front) (a : Nat) : Option Front :=
  let base := instrCost (p.code t a)
  if p.mayDivideByZero t a then (enter 0o40).map fun f => Front.after f (base.add trapCost) else some [base]

/-- The front of the instruction at `a` itself; `enter` gives the front of a callee or handler, none when it is unbounded. -/
def instrFront (p : ProgView) (t task : Nat) (enter : Nat → Option Front) (a : Nat) : Option Front :=
  let w := p.code t a
  let n := (a + 1) % 131072
  let op := bitsOf w 17 12
  let base := instrCost w
  if (reservedDetail w (p.code t n)).isSome then reservedFront p enter w
  else if op = 0 ∧ bitsOf w 5 0 = 1 then some [{ cycles := 8 + p.writeWords task, effects := 1 }]
  else if op = 0o64 then some [solveCost (p.block t ((p.code t n).toNat % 131072))]
  else if op = 0o36 then
    let tw := p.code t n
    let rep (f : Front) : Front := Front.after f { cycles := 1 }
    if noPrefix tw then (enter 0o10).map fun f => rep (Front.after f trapCost)
    else if (reservedDetail tw (p.code t ((n + 1) % 131072))).isSome then (reservedFront p enter tw).map rep
    else
      match findBound p.proof.loops t a, onceFront p t enter n with
      | some b, some f => some (rep (f.map (Cost.times b)))
      | _, _ => none
  else
    match (flowOf p t a).callees with
    | [] => onceFront p t enter a
    | cs => (cs.foldl (fun acc c => acc.bind fun f => (enter c).map (Front.union f)) (some [])).map fun f => Front.after f base

/-- Where a walk stands: the addresses it stays within, the head of the loop whose pass it costs, the loops of the routine, and
the routines entered. -/
structure Walk where
  lo : Nat := 0
  hi : Nat := 131071
  head : Option Nat := none
  loops : List (Nat × Nat)
  calls : List Nat

/-- Whether a walk goes on to an address. -/
def Walk.stays (w : Walk) (d : Nat) : Bool := decide (w.lo ≤ d) && decide (d ≤ w.hi) && w.head != some d

/-- A walk of a whole routine, from one that calls it. -/
def routineWalk (p : ProgView) (t start : Nat) (calls : List Nat) : Walk :=
  { loops := loopsOf p t (routineCode p t 0 131071 start), calls := start :: calls }

/-- The fronts of `a` and of what follows it added to those walked: a loop is its body times its bound (R511), a call its
callee; none for a path that is not bounded. `path` holds the addresses being walked: a way back to one of them is a loop that
no backward branch of R511 forms, which the loader refuses under code 4. -/
def costFrom (p : ProgView) (t task : Nat) : Nat → Walk → List Nat → Fronts → Nat → Option Fronts
  | 0, _, _, _, _ => none
  | n + 1, w, path, tbl, a =>
    if tbl.any fun e => e.1 == a then some tbl
    else if a ∈ path then none
    else
      let follow (ds : List Nat) : Option Fronts :=
        ds.foldl (fun acc d => acc.bind fun tb => if w.stays d then costFrom p t task n w (a :: path) tb d else some tb) (some tbl)
      let rest (tb : Fronts) (ds : List Nat) : Front :=
        if ds = [] then Front.zero
        else ds.foldl (fun f d => Front.union f (if w.stays d then frontAt tb d else Front.zero)) []
      let put (here : Front) (ds : List Nat) : Option Fronts := (follow ds).map fun tb => (a, Front.seq here (rest tb ds)) :: tb
      match if w.head = some a then none else w.loops.find? fun l => l.1 == a with
      | some l =>
        let body := costFrom p t task n { w with lo := l.1, hi := l.2, head := some a } [] [] a
        let exits := (routineCode p t l.1 l.2 a).flatMap fun x => (flowOf p t x).next.filter fun d => decide (l.2 < d) || decide (d < l.1)
        match findBound p.proof.loops t a, body with
        | some b, some f => put ((frontAt f a).map (Cost.times b)) exits
        | _, _ => none
      | none =>
        let f := flowOf p t a
        let enter (c : Nat) : Option Front :=
          if c ∈ w.calls then none
          else (costFrom p t task n (routineWalk p t c w.calls) [] [] c).map fun tb => frontAt tb c
        if f.unknown then none
        else (instrFront p t task enter a).bind fun here => put here f.next

/-- The front of one slot: dispatch, then every path from ENTRY to the return (R57). -/
def slotFront (p : ProgView) (t : Nat) (e : SlotEntry) : Option Front :=
  (costFrom p t e.task walkFuel (routineWalk p t e.entry []) [] [] e.entry).map fun tb =>
    Front.after (frontAt tb e.entry) { cycles := 24 }

/-! ## The conditions (R58, R173) -/

/-- Every slot of a list of tables with its tile and slot number; a package's own tables begin at slot 1 on
tile 0 (R55). -/
def slotsOf (start : Bool) (tables : List TileTables) : List (Nat × Nat × SlotEntry) :=
  tables.flatMap fun x =>
    let l := tableSlots (if start then x.start else x.run)
    let first := if x.tile = 0 then 1 else 0
    (List.range l.length).map fun i => (x.tile, first + i, l.getD i ⟨0, 0, 1, 0, 0, 0, 0⟩)

/-- The first slot of a table that fails a test, as a refusal with a code. -/
def firstSlot (code : Nat) (slots : List (Nat × Nat × SlotEntry)) (bad : Nat → SlotEntry → Bool) : Option Refused :=
  (slots.find? fun x => bad x.1 x.2.2).map fun x => { code := code, tile := x.1, slot := x.2.1 }

/-- A refusal unless a condition holds. -/
def unlessOk (ok : Bool) (r : Refused) : Option Refused := if ok then none else some r

/-- T_task in µs from T0: T_in solo, T_in + 8 in a configured arch (R48). -/
def taskStart (setup : TickSetup) (arch : Bool) : Nat := setup.inwin + if arch then 8 else 0

/-- Two slots of one tile overlap in time without being cyclic with the same k and different phases (R58, 2). -/
def clash (a b : SlotEntry) : Bool :=
  decide (a.offset < b.offset + b.budget) && decide (b.offset < a.offset + a.budget) &&
    !(decide (a.kind = 0) && decide (b.kind = 0) && decide (a.period = b.period) && decide (a.phase ≠ b.phase))

/-- The safety interface slot of tile 0 (R55). -/
def safetySlot : SlotEntry := ⟨4, 2, 1, 0, 0, 0, 2400⟩

/-- Condition 2 over one table. -/
def overlapIn (slots : List (Nat × Nat × SlotEntry)) : Option Refused :=
  (slots.find? fun x =>
    (x.1 == 0 && clash safetySlot x.2.2) ||
      slots.any fun y => y.1 == x.1 && decide (y.2.1 < x.2.1) && clash y.2.2 x.2.2).map fun x => { code := 2, tile := x.1, slot := x.2.1 }

/-- Whether a slot is active in tick n (R50): event and error slots count in every tick. -/
def activeIn (n : Nat) (e : SlotEntry) : Bool := if e.kind = 0 then decide (n % e.period = e.phase) else true

/-- Lines of a declared write set (R75). -/
def rangeLines (r : WordRange) : List Nat := ((List.range r.len).map fun i => mortarLine r.area (r.first + i)).eraseDups

/-- What a slot dirties (R75): the words it may store to addresses the code does not fix; those it stores to addresses the code
fixes, and the lines of these; and the lines of its write set. -/
structure SlotLines where
  loose : Nat
  fixed : Nat
  lines : List Nat
  writes : List Nat

/-- Addresses of tile data memory that the instruction at an address stores to by its words alone: STA, STDA, SOLVE, and the
frames of the traps it may take (R75). -/
def fixedStores (p : ProgView) (t a : Nat) : List Nat :=
  let w := p.code t a
  let x := (p.code t ((a + 1) % 131072)).toNat % 131072
  (match bitsOf w 17 12, bitsOf w 5 0 with
   | 0o66, 1 => [x]
   | 0o66, 3 => [x, (x + 1) % 131072]
   | 0o64, _ => solveStores (p.block t x)
   | _, _ => []) ++ (if (p.vectorsAt t a).isEmpty then [] else List.range 16)

/-- What a slot dirties on its worst path (R75). -/
def slotLines (p : ProgView) (t : Nat) (e : SlotEntry) : SlotLines :=
  let f := (slotFront p t e).getD []
  { loose := f.most Cost.loose, fixed := f.most fun c => c.stores - c.loose
    lines := (((slotCode p t e.entry).flatMap (fixedStores p t)).map (dataLine t)).eraseDups
    writes := ((p.writesOf e.task).flatMap rangeLines).eraseDups }

/-- The lines of several slots of one tick: a word proved to lie in a line already counted adds none (R75). DEDUCED: the loader
proves it of the addresses that stand in the code, and of the declared write sets. -/
def linesOf (l : List SlotLines) : Nat :=
  let sum (f : SlotLines → Nat) : Nat := (l.map f).foldl (· + ·) 0
  sum SlotLines.loose + min (sum SlotLines.fixed) (l.flatMap SlotLines.lines).eraseDups.length +
    (l.flatMap SlotLines.writes).eraseDups.length

/-- The ticks over which the phases of a table's slots repeat. -/
def cycleLength (slots : List (Nat × Nat × SlotEntry)) : Nat :=
  (slots.map fun x => if x.2.2.kind = 0 then max 1 x.2.2.period else 1).foldl Nat.lcm 1

/-- Condition 7 (R58): the worst tick's lines, with `extra` lines in it, against 24 × P; the slot reported is
the one that contributes the most lines, of equals the lowest tile and slot. -/
def persistIn (p : ProgView) (period extra : Nat) (slots : List (Nat × Nat × SlotEntry)) : Option Refused :=
  let lines := (sortBy (fun x => 64 * x.1 + x.2.1) slots).map fun x => (x, slotLines p x.1 x.2.2)
  let tick (n : Nat) := lines.filter fun y => activeIn n y.1.2.2
  let sum (n : Nat) : Nat := linesOf ((tick n).map Prod.snd)
  let worst := (List.range (cycleLength slots)).foldl (fun b n => if sum b < sum n then n else b) 0
  if (sum worst + extra) * 8 ≤ 24 * period then none
  else
    let own (y : (Nat × Nat × SlotEntry) × SlotLines) : Nat := linesOf [y.2]
    let most := ((tick worst).map own).foldl max 0
    match (tick worst).find? fun y => own y == most with
    | some y => some { code := 7, tile := y.1.1, slot := y.1.2.1 }
    | none => some { code := 7 }

/-- Whether two ranges share a word. -/
def WordRange.meets (a b : WordRange) : Bool :=
  decide (a.area = b.area) && decide (0 < a.len) && decide (0 < b.len) && decide (a.first < b.first + b.len) &&
    decide (b.first < a.first + a.len)

/-- Whether the words of a range all lie in the write set of a task. -/
def ProgView.owns (p : ProgView) (task area first last : Nat) : Bool :=
  (p.writesOf task).any fun r => decide (r.area = area) && decide (r.first ≤ first) && decide (last < r.first + r.len)

/-- The write sets of a task and of another share no word (R58, code 5). -/
def writesApart (a b : TaskDecl) : Bool :=
  a.task == b.task || !(a.writes.any fun x => b.writes.any fun y => WordRange.meets x y)

/-- The far stores a slot can reach have a declared range, and the ranges of its task lie in its write set (R120). -/
def farStoresOk (p : ProgView) (t : Nat) (e : SlotEntry) : Bool :=
  let ranges := p.proof.farRanges.filter fun f => f.1 == e.task
  let stores := (slotCode p t e.entry).any fun a =>
    bitsOf (p.code t a) 17 12 == 0o40 && bitsOf (p.code t a) 0 0 == 1 && decide (bitsOf (p.code t a) 5 0 ≤ 5)
  (!stores || !ranges.isEmpty) && ranges.all fun f => p.owns e.task f.2.1 f.2.2.1 f.2.2.2

/-- The SOLVE blocks a slot can reach. -/
def blocksOf (p : ProgView) (t entry : Nat) : List Nat :=
  (slotCode p t entry).filterMap fun a =>
    if bitsOf (p.code t a) 17 12 = 0o64 then some ((p.code t ((a + 1) % 131072)).toNat % 131072) else none

/-- Write-backs of a slot's blocks lie in its write set (R95, code 5). -/
def writeBacksOk (p : ProgView) (t : Nat) (e : SlotEntry) : Bool :=
  (blocksOf p t e.entry).all fun b =>
    match readHeader (p.block t b) with
    | none => true
    | some h => (stageList h (p.block t b)).all fun s => !s.wb || decide (s.area = 3) || p.owns e.task s.area s.index s.index

/-- Condition 5 (R58, R65, R95, R120): the slot concerned is one of the two tasks that write a word, or the one that writes
outside its set. -/
def writerFault (p : ProgView) (slots : List (Nat × Nat × SlotEntry)) : Option Refused :=
  let decl (task : Nat) : List TaskDecl := p.tasks.filter fun d => d.task == task
  (firstSlot 5 slots fun t e =>
    !((decl e.task).all fun a => p.tasks.all (writesApart a)) || !writeBacksOk p t e || !farStoresOk p t e).orElse fun _ =>
  unlessOk (p.tasks.all fun a => p.tasks.all (writesApart a)) { code := 5 }

/-- The cell arrays of a slot's blocks: base and end (R92). -/
def cellArrays (p : ProgView) (t : Nat) (e : SlotEntry) : List (Nat × Nat) :=
  (blocksOf p t e.entry).filterMap fun b =>
    match readHeader (p.block t b) with
    | some h => if h.cells = 0 then none else some (h.cellBase, h.cellBase + 8 * h.cells)
    | none => none

/-- Two address ranges, base and end, do not meet. -/
def rangesApart (a b : Nat × Nat) : Bool := decide (a.2 ≤ b.1) || decide (b.2 ≤ a.1)

/-- Condition 9 (R92, R99): the first illegal block a slot reaches, with its cause, or the first block whose cell array meets one
of another task. -/
def courseFault (p : ProgView) (all : List (Nat × Nat × SlotEntry)) (x : Nat × Nat × SlotEntry) : Option Refused :=
  let t := x.1
  (blocksOf p t x.2.2.entry).findSome? fun b =>
    match blockCause (p.block t b) with
    | some c => some { code := 9, tile := t, slot := x.2.1, block := b, cause := c }
    | none =>
      let h := headerOf (p.block t b)
      let own := (h.cellBase, h.cellBase + 8 * h.cells)
      if h.cells ≠ 0 ∧ (all.any fun y => y.1 == t && y.2.2.task != x.2.2.task && (cellArrays p t y.2.2).any fun d => !rangesApart own d)
      then some { code := 9, tile := t, slot := x.2.1, block := b } else none

/-- Condition 8 for one slot of a run table or a start table (R58). -/
def slotTableOk (start : Bool) (e : SlotEntry) : Bool :=
  decide (e.kind ≤ 3) && decide (e.entry < 131072) &&
  (if e.kind = 0 then decide (1 ≤ e.period) && decide (e.period ≤ 4096) else decide (e.period = 1)) &&
  decide (e.phase < e.period) &&
  (match e.kind with
   | 2 => decide (e.task = 1)
   | 3 => decide (e.task = 0)
   | _ => decide (3 ≤ e.task) && decide (e.task ≤ 255)) &&
  (if start then decide (e.kind = 3) else decide (e.kind ≠ 3))

/-- Condition 8 for one table (R54, R58): whole entries with every rule kept, an end entry, and at most 63 slots with the safety
interface's. -/
def tableFault (t : Nat) (start : Bool) (ws : List Word) : Option Refused :=
  let (raw, ended) := rawSlots 64 ws
  let first := if t = 0 then 1 else 0
  let at_ (i : Nat) : Refused := { code := 8, tile := t, slot := first + i }
  ((List.range raw.length).find? fun i =>
    let e := raw.getD i []
    !(entryWhole e && slotTableOk start (slotOf e)) || decide (63 ≤ first + i)).map at_ |>.orElse fun _ => unlessOk ended (at_ raw.length)

/-- Exactly one slot stands in a list (R58, code 8). -/
def oneSlot : List (Nat × Nat × SlotEntry) → Option Refused
  | [] => some { code := 8 }
  | [_] => none
  | _ :: y :: _ => some { code := 8, tile := y.1, slot := y.2.1 }

/-- The stack range of a tile is clear of the trap frame and of the cell arrays (R118). -/
def stackOk (p : ProgView) (slots : List (Nat × Nat × SlotEntry)) (x : TileTables) : Bool :=
  decide (16 ≤ x.sblo) && decide (x.sblo ≤ x.sbhi) && decide (x.sbhi < 131072) &&
    slots.all fun y => y.1 != x.tile || (cellArrays p x.tile y.2.2).all fun c => rangesApart c (x.sblo, x.sbhi + 1)

/-- Zeros stand at the vectors never fetched (R130). -/
def vectorsOk (p : ProgView) (t : Nat) : Bool :=
  ((List.range 8).all fun i => p.code t (0o30 + i) == 0) && (List.range 16).all fun i => p.code t (0o60 + i) == 0

/-- Condition 8 (R54, R58, R118, R130). -/
def tablesFault (p : ProgView) : Option Refused :=
  let run := slotsOf false p.tables
  let st := slotsOf true p.tables
  let slots := run ++ st
  (p.tables.findSome? fun x => (tableFault x.tile false x.run).orElse fun _ => tableFault x.tile true x.start).orElse fun _ =>
  (oneSlot (st.filter fun x => x.2.2.kind == 3)).orElse fun _ =>
  (oneSlot (run.filter fun x => x.2.2.kind == 2)).orElse fun _ =>
  (firstSlot 8 slots fun _ e => slots.any fun y => y.2.2.task == e.task && y.2.2.kind != e.kind).orElse fun _ =>
  ((p.tables.find? fun x => !stackOk p slots x).map fun x => ({ code := 8, tile := x.tile } : Refused)).orElse fun _ =>
  ((p.given ++ p.tables.map TileTables.tile).find? fun t => !vectorsOk p t).map fun t => { code := 8, tile := t }

/-- The first condition of R58 that a program fails, in the order of the codes. -/
def proveProgram (p : ProgView) (setup : TickSetup) (arch : Bool) (tiles extra : Nat) : Option Refused :=
  let run := slotsOf false p.tables
  let st := slotsOf true p.tables
  let slots := run ++ st
  let window := (setup.period - 40 - taskStart setup arch) * 400
  (firstSlot 1 ((0, 0, safetySlot) :: slots) fun _ e => decide (window < e.offset + e.budget)).orElse fun _ =>
  (overlapIn run).orElse fun _ => (overlapIn st).orElse fun _ =>
  (firstSlot 3 slots fun t e => match slotFront p t e with | some f => decide (e.budget < Front.worst f) | none => false).orElse
    fun _ =>
  (firstSlot 4 slots fun t e => (slotFront p t e).isNone || !loopsOk p t (slotCode p t e.entry)).orElse fun _ =>
  (writerFault p slots).orElse fun _ =>
  ((p.tables.find? fun x => decide (tiles ≤ x.tile)).map fun x => ({ code := 6, tile := x.tile } : Refused)).orElse fun _ =>
  (persistIn p setup.period extra run).orElse fun _ => (persistIn p setup.period extra st).orElse fun _ =>
  (tablesFault p).orElse fun _ => slots.findSome? (courseFault p slots)

end Sys2Proof.Machine
end

