-- ==== Sys2Proof/Machine/Setup.lean ====
section
/-!
DEFINITION. The set-up registers by index (R509) and the fields the other chapters read from them.
-/

namespace Sys2Proof.Machine

/-! ## Arch and links -/

/-- AR_CFG in effect (R263): ARCH, SIDE, AUTOTRACK, AUTOHAND. -/
def State.arCfg (s : State) : Word := s.setupTickOr 0o000_600 0o140_000

/-- Configured in an arch (R48, R263). -/
def State.inArch (s : State) : Bool := bitOf s.arCfg 17

/-- SIDE: 0 for a Keystone not configured in an arch (R240). -/
def State.side (s : State) : Nat := if s.inArch then flagNat (bitOf s.arCfg 16) else 0

/-- SL_CFGk in effect (R231). -/
def State.slCfg (s : State) (k : Nat) : Word := s.setupTickOr (0o000_510 + k) 0o000_003

/-- MODE of a link: 0 off, 1 Lintel, 2 native; 3 is taken as 2 (R231). -/
def State.linkMode (s : State) (k : Nat) : Nat := min 2 (bitsOf (s.slCfg k) 17 16)

/-- TOPO: the link is a ring (R201). -/
def State.linkRing (s : State) (k : Nat) : Bool := bitOf (s.slCfg k) 15

/-- END: the ring end this Keystone holds (R231). -/
def State.linkEnd (s : State) (k : Nat) : Bool := bitOf (s.slCfg k) 14

/-- COUNT: stations on the link, 0–16 (R202). -/
def State.linkCount (s : State) (k : Nat) : Nat := min 16 (bitsOf (s.slCfg k) 12 8)

/-- TMO: station output timeout in ticks, 1–255 (R222). -/
def State.linkTmo (s : State) (k : Nat) : Nat := max 1 (bitsOf (s.slCfg k) 7 0)

/-- One word of a station table entry in effect (R231). -/
def State.stationWord (s : State) (i w : Nat) : Word := s.setupTickOr (0o002_000 + 4 * i + w) 0

/-- EN of a station's position. -/
def State.stationOn (s : State) (i : Nat) : Bool := bitOf (s.stationWord i 0) 17

/-- SUB of a station, 0–2 (R225). -/
def State.stationSub (s : State) (i : Nat) : Nat := min 2 (bitsOf (s.stationWord i 0) 16 15)

/-- OWORDS, OBASE, IWORDS and IBASE of a station (R202, R231). -/
def State.owords (s : State) (i : Nat) : Nat := min 256 (bitsOf (s.stationWord i 0) 8 0)
/-- OBASE. -/
def State.obase (s : State) (i : Nat) : Nat := min 0o076_777 (bitsOf (s.stationWord i 1) 14 0)
/-- IWORDS. -/
def State.iwords (s : State) (i : Nat) : Nat := min 256 (bitsOf (s.stationWord i 2) 8 0)
/-- IBASE. -/
def State.ibase (s : State) (i : Nat) : Nat := min 0o076_777 (bitsOf (s.stationWord i 3) 14 0)

/-- The configured positions of a link, in ascending order (R202). -/
def State.positions (s : State) (k : Nat) : List Nat :=
  (List.range (s.linkCount k)).filter fun p => s.stationOn (16 * k + p)

/-- Link `k`. -/
def State.link (s : State) (k : Nat) : Link := Tbl.get {} s.links k
/-- Write link `k`. -/
def State.setLink (s : State) (k : Nat) (x : Link) : State := { s with links := Tbl.set {} s.links k x }
/-- Station `i`. -/
def State.station (s : State) (i : Nat) : Station := Tbl.get {} s.stations i
/-- Write station `i`. -/
def State.setStation (s : State) (i : Nat) (x : Station) : State := { s with stations := Tbl.set {} s.stations i x }

/-- The Keystone holds the lease (R241, R243). -/
def State.holds (s : State) : Bool := s.arch.lstate == 5 || s.arch.lstate == 6

/-- The epoch station views are judged by (R213): in Track the holder's, as last heard. -/
def State.viewEpoch (s : State) : Nat :=
  if s.md.mode = .track then max s.arch.epoch s.arch.peerEpoch else s.arch.epoch

/-- Raise an error cause in the current tick (R56). -/
def State.raise (s : State) (cause : Nat) : State :=
  { s with work := { s.work with errNow := s.work.errNow ||| word (2 ^ cause) } }

/-- The output word readers see: committed by the end of the last tick, and this tick's commits (R67). -/
def State.outWord (s : State) (i : Nat) : Word := s.work.mortar.outNow i

/-- A value clamped to a range (R16). -/
def clampTo (lo hi n : Nat) : Nat := max lo (min hi n)

/-! ## The telegram table (R300) -/

/-- A telegram table entry (R300). KIND: 0 publication, 1 subscription, 2 source port, 3 sink port. -/
structure TelEntry where
  kind : Nat
  sdt : Bool
  train : Bool
  zero : Bool
  id : Nat
  base : Nat
  len : Nat
  k : Nat
  phase : Nat
  sdtSet : Nat

/-- An entry from its eight words. -/
def telEntryOf (w : Nat → Word) : TelEntry :=
  { kind := bitsOf (w 0) 17 16, sdt := bitOf (w 0) 15, train := bitOf (w 0) 14, zero := bitOf (w 0) 13,
    id := joinNat (w 1) (w 2), base := bitsOf (w 3) 14 0, len := bitsOf (w 4) 10 0, k := bitsOf (w 5) 11 0,
    phase := bitsOf (w 6) 11 0, sdtSet := bitsOf (w 7) 5 0 }

/-- An entry in a table; K 0 stands only in an entry never written. -/
def telEntry (t : Tbl Word) (e : Nat) : TelEntry := telEntryOf fun w => Tbl.get 0 t (8 * e + w)

/-- The entries in use, in table order. -/
def usedEntries (t : Tbl Word) : List Nat := (List.range 512).filter fun e => (telEntry t e).k != 0

/-- The data words of a block: one octet per nonet, or the port words of an F-code (R301). -/
def TelEntry.dataWords (x : TelEntry) : Nat := if x.kind ≤ 1 then (x.len + 1) / 2 else 2 ^ x.len

/-- Where a block's data begin: TRDP octets stand from word 1, a sink's port words after its status word (R301). -/
def TelEntry.dataAt (x : TelEntry) : Nat := if x.kind = 2 then 0 else 1

/-- A receiving entry: subscription or sink. -/
def TelEntry.receives (x : TelEntry) : Bool := x.kind == 1 || x.kind == 3

/-- The image words of an entry's block (R300, R301). -/
def TelEntry.block (x : TelEntry) : WordRange := ⟨if x.receives then 0 else 1, x.base, x.dataAt + x.dataWords⟩

/-- TN_CFG, TN_CAR, TN_TSRC and TN_MVB in effect: as of the last Start (R315). -/
def State.tnCfg (s : State) : Word := s.setupStartOr 0o010_000 0o452_000
/-- TN_CAR. -/
def State.tnCar (s : State) : Word := s.setupStartOr 0o010_001 0o000_401
/-- TN_TSRC. -/
def State.tnTsrc (s : State) : Word := s.setupStartOr 0o010_002 0o200_377

/-! ## CAN and serial registers (R334) -/

/-- CN_CFG of channel c, in effect at once. -/
def State.cnCfg (s : State) (c : Nat) : Word := s.setupOr (0o010_400 + 16 * c) 0o240_000
/-- CN_IMG0 and CN_IMG1 in effect (R45). -/
def State.cnImgBase (s : State) (c : Nat) : Nat := bitsOf (s.setupTickOr (0o010_405 + 16 * c) 0) 14 0
/-- CN_IMG1. -/
def State.cnImg1 (s : State) (c : Nat) : Word := s.setupTickOr (0o010_406 + 16 * c) 0o000_004
/-- The image path of a CAN channel is on. -/
def State.cnImgOn (s : State) (c : Nat) : Bool := bitOf (s.cnImg1 c) 17
/-- Words of one image entry: 12 or 40 (R326). -/
def State.cnEntryWords (s : State) (c : Nat) : Nat := if bitOf (s.cnImg1 c) 16 then 40 else 12
/-- NENT, 1–15. -/
def State.cnEntries (s : State) (c : Nat) : Nat := max 1 (bitsOf (s.cnImg1 c) 3 0)
/-- SR_CFG of channel c. -/
def State.srCfg (s : State) (c : Nat) : Word := s.setupOr (0o011_000 + 16 * c) 0o100_007
/-- SR_IMG0.BASE in effect. -/
def State.srImgBase (s : State) (c : Nat) : Nat := bitsOf (s.setupTickOr (0o011_003 + 16 * c) 0) 14 0
/-- SR_IMG1 in effect. -/
def State.srImg1 (s : State) (c : Nat) : Word := s.setupTickOr (0o011_004 + 16 * c) 0o000_100
/-- The image path of a serial channel is on. -/
def State.srImgOn (s : State) (c : Nat) : Bool := bitOf (s.srImg1 c) 17
/-- SIZE, 8–1,024. -/
def State.srSize (s : State) (c : Nat) : Nat := clampTo 8 1024 (bitsOf (s.srImg1 c) 10 0)

/-! ## Field I/O and metering registers (R375, R396) -/

/-- FI_IMG.BASE in effect. -/
def State.fiBase (s : State) : Nat := min 0o076_775 (bitsOf (s.setupTickOr 0o012_404 0o076_775) 14 0)
/-- FO_IMG.BASE in effect. -/
def State.foBase (s : State) : Nat := min 0o076_777 (bitsOf (s.setupTickOr 0o012_405 0o076_777) 14 0)
/-- MT_CFG in effect. -/
def State.mtCfg (s : State) : Word := s.setupTickOr 0o013_000 0o000_005
/-- MT_IMG in effect. -/
def State.mtImg (s : State) : Word := s.setupTickOr 0o013_021 0
/-- MT_IMG.BASE. -/
def State.mtBase (s : State) : Nat := min 0o076_720 (bitsOf s.mtImg 14 0)

/-! ## Outputs -/

/-- HD_CFG.POLICY is SAFE (R197). -/
def State.holdSafe (s : State) : Bool := bitOf (s.setupTickOr 0o000_420 0o000_001) 0

/-- Outputs follow the output image: in Run after its first tick, in Takeover, in Hold under LAST (R22, R39, R187). -/
def State.outputsLive (s : State) : Bool :=
  match s.md.mode with
  | .run => !s.md.holdOutputs
  | .takeover => true
  | .hold => !s.holdSafe
  | _ => false

/-- Whether a session or ring master may write with at least the given right (R464–R466): the foreman through a
session, the host link through the binding of ring 0, the debug port with maker rights while open. -/
def State.writerRight (s : State) (m : Nat) (session : Option Nat) : Nat :=
  match m with
  | 0 => match session with | some id => (s.sessionCred id).role | none => 0
  | 1 => (s.ringCred 0).role
  | 3 => if s.debugOpen.isSome then 3 else 0
  | _ => 0

/-- Who writes a set-up register: the master, the right and the credential it writes with (R505). -/
structure Writer where
  m : Nat
  right : Nat
  cred : Cred

/-- The writer behind a master's write. -/
def State.writer (s : State) (m : Nat) (session : Option Nat) : Writer :=
  { m := m, right := s.writerRight m session
    cred := match m, session with
      | 0, some id => s.sessionCred id
      | 1, _ => s.ringCred 0
      | 3, _ => match s.debugOpen with | some id => s.sessionCred id | none => {}
      | _, _ => {} }

/-- A write that a register refuses: counted for the host link (R505). -/
def State.refuse (s : State) (w : Writer) : State := s.countIgnored w.m

/-- A write that a register refuses and its chapter records. -/
def State.refuseRecorded (s : State) (w : Writer) (idx : Nat) (v : Word) : State :=
  (s.countIgnored w.m).named .setupWriteIgnored 0 0 w.cred [idx, v.toNat, w.m, 0]

/-- A set-up write that is taken under a right: the value is stored, and the change is recorded (R9). -/
def State.takeSetup (s : State) (w : Writer) (idx : Nat) (v : Word) : State :=
  (s.putSetup idx v).changed w.cred idx v.toNat w.m

/-- A set-up write taken with the given right only, else refused. -/
def State.writeWith (s : State) (w : Writer) (right : Nat) (idx : Nat) (v : Word) : State :=
  if right ≤ w.right then s.takeSetup w idx v else s.refuse w

/-- A set-up write taken only in Stop and with installer rights; others are ignored and recorded (R45). -/
def State.writeInStop (s : State) (w : Writer) (idx : Nat) (v : Word) : State :=
  if s.md.mode = .stop ∧ 2 ≤ w.right then s.takeSetup w idx v else s.refuseRecorded w idx v

/-- Why a mode changes, as the transition record tells it (R23, R26). -/
inductive ModeCause where
  | request | leave | seal | safe | stale | fault | trackingLost | takeover | handover | stopMarker | update | breakpoint
  | automatic | start | power | backup
deriving DecidableEq, Repr

/-- The record of a transition that ends what the recorder can hold in its queue: a start or a loss of power (R23). -/
def State.tellMode (s : State) (m : Mode) (cause : ModeCause) : State :=
  s.named .modeTransition 0 0 {} [s.md.mode.code * 16 + m.code, cause.ctorIdx, s.tickNumber % 2 ^ 18, s.tickNumber / 2 ^ 18]

/-- Enter a mode: every transition is recorded with its cause, and with the role and fingerprint of a request (R23). -/
def State.toMode (s : State) (m : Mode) (cause : ModeCause) (cred : Cred) : State :=
  ({ s with md := { s.md with mode := m, prev := s.md.mode } }).named .modeTransition 0 0 cred
    [s.md.mode.code * 16 + m.code, cause.ctorIdx, s.tickNumber % 2 ^ 18, s.tickNumber / 2 ^ 18]

/-- Power domain `d` is on and in regulation (R490, R500). -/
def State.domainOn (s : State) (d : Nat) : Bool := Tbl.get false s.power.on d

/-- PD4 is populated only in the KS-8 (R3). -/
def State.populated (s : State) (d : Nat) : Bool := decide (d < 10) && (d != 4 || s.variant == 2)

/-- A cause that Safe cannot be left with (R41): too few bonds, or a domain of R491 still out of regulation. -/
def State.safeCauseStands (s : State) : Bool :=
  s.md.startFault || [2, 3, 4, 5, 7, 8].any fun d => s.populated d && !s.domainOn d

/-- Service is left for Stop (R26): what stood or arose in Service and no lower level contains makes Safe due there. -/
def State.leaveService (s : State) (cause : ModeCause) (cred : Cred) : State :=
  let s1 := s.toMode .stop cause cred
  { s1 with md := { s1.md with serviceSession := none, safeDue := s1.safeCauseStands || s1.watchdog.expired } }

/-- The links of a port block without its supply: down (R211). -/
def State.downLinks (s : State) : Tbl Link := Tbl.mapEntries {} (fun _ x => { x with up := false }) s.links

/-- Switch domains on or off (R490); without PD7 the link ports are down (R211). -/
def State.switch (s : State) (on : Bool) (ds : List Nat) : State :=
  { s with power := { s.power with on := ds.foldl (fun t d => Tbl.set false t d on) s.power.on }
           links := if !on && ds.contains 7 then s.downLinks else s.links }

/-- A backup word. -/
def Clock.bk (c : Clock) (k : Nat) : Word := Tbl.get 0 c.backup k
/-- Write a backup word. -/
def Clock.setBk (c : Clock) (k : Nat) (w : Word) : Clock := { c with backup := Tbl.set 0 c.backup k w }

/-- CONT, bit 0 of BK_W1 (R436). -/
def Clock.cont (c : Clock) : Bool := bitOf (c.bk 1) 0

/-- Set or clear CONT (R436). -/
def Clock.setCont (c : Clock) (b : Bool) : Clock :=
  c.setBk 1 (if b then c.bk 1 ||| 1 else c.bk 1 &&& 0o777_776)

/-- A field of a word, for building register values. -/
def fieldAt (v lo : Nat) : Nat := v * 2 ^ lo

/-- Nonets packed two to a word, the first in bits 8:0 (R10, R11). -/
def packNonets : List Nat → List Word
  | [] => []
  | [a] => [word (a % 512)]
  | a :: b :: rest => word (a % 512 + 512 * (b % 512)) :: packNonets rest

/-- Octets as nonets: bit 8 marks the last octet of the frame (R11). -/
def octetNonets : List Nat → List Nat
  | [] => []
  | [a] => [a % 256 + 256]
  | a :: rest => a % 256 :: octetNonets rest

/-- Octets one per nonet (R11). -/
def octetWords (l : List Nat) : List Word := packNonets (octetNonets l)

/-- Words padded with zeros, or cut, to a length. -/
def fitWords (n : Nat) (ws : List Word) : List Word := (List.range n).map fun i => ws.getD i 0

/-- The low bits of a two's complement number. -/
def signedField (bits : Nat) (v : Int) : Nat := (v % (2 ^ bits : Nat)).toNat

/-- The two's complement value of the low bits of a word. -/
def signedOf (bits : Nat) (v : Nat) : Int :=
  let n := v % 2 ^ bits
  if 2 ^ (bits - 1) ≤ n then (n : Int) - (2 ^ bits : Nat) else n

/-- A signed number saturated to 18 bits. -/
def saturate18 (v : Int) : Nat := signedField 18 (max (-131072) (min 131071 v))

end Sys2Proof.Machine
end

