-- ==== Sys2Proof/Machine/Alloc.lean ====
section
/-!
DEFINITION. The allocations of the images (R69): the blocks of stations, field I/O, mailboxes, train networks,
CAN, serial and metering, and the system area.
-/

namespace Sys2Proof.Machine

/-- The system area of each image (R70). -/
def systemArea (area : Nat) : WordRange := ⟨area, 0o077_000, 0o1000⟩

/-- The stations configured, as (link, position). -/
def State.allStations (s : State) : List (Nat × Nat) :=
  (List.range 16).flatMap fun k => if s.linkMode k = 0 then [] else (s.positions k).map fun p => (k, p)

/-- Station blocks (R202, R231). -/
def State.stationBlocks (s : State) : List WordRange :=
  s.allStations.flatMap fun kp =>
    let i := 16 * kp.1 + kp.2
    [⟨1, s.obase i, s.owords i⟩, ⟨0, s.ibase i, s.iwords i⟩]

/-- Receive blocks of a channel's tile receivers, on a Keystone that runs a number of tiles (R283): a disabled channel has none
(R282), and channel 31's stands in the system area (R349). -/
def bindingBlocks (tiles c : Nat) (b : Binding) : List WordRange :=
  if !b.usable tiles || c == 31 then []
  else
    let n := if b.len16 then 17 else 9
    (if 8 ≤ b.x then [⟨0, b.ibx, n⟩] else []) ++ (if 8 ≤ b.y then [⟨0, b.iby, n⟩] else [])

/-- Mailbox blocks in effect. -/
def State.mailboxBlocks (s : State) : List WordRange := s.channels.flatMap fun e => bindingBlocks s.tileCount e.1 e.2.bind

/-- Blocks of a telegram table (R300). -/
def tableBlocks (t : Tbl Word) : List WordRange := (usedEntries t).map fun e => (telEntry t e).block

/-- CAN and serial blocks (R326, R331). -/
def State.channelBlocks (s : State) : List WordRange :=
  (List.range 8).flatMap fun c =>
    (if s.cnImgOn c then [⟨0, s.cnImgBase c, 1 + s.cnEntries c * s.cnEntryWords c⟩] else []) ++
    (if s.srImgOn c then [⟨0, s.srImgBase c, s.srSize c⟩] else [])

/-- Field I/O and metering blocks (R365, R389). -/
def State.fieldBlocks (s : State) : List WordRange :=
  [⟨0, s.fiBase, 3⟩, ⟨1, s.foBase, 1⟩] ++ (if bitOf s.mtImg 17 then [⟨0, s.mtBase, 48⟩] else [])

/-- Blocks that hold no word allocate nothing. -/
def nonEmpty (l : List WordRange) : List WordRange := l.filter fun r => r.len != 0

/-- The allocations in effect (R69). -/
def State.allocations (s : State) : List WordRange :=
  nonEmpty (s.stationBlocks ++ s.fieldBlocks ++ s.mailboxBlocks ++ tableBlocks s.train.table ++ s.channelBlocks)

/-- No two ranges of a list meet. -/
def apart : List WordRange → Bool
  | [] => true
  | r :: rs => (rs.all fun q => !WordRange.meets r q) && apart rs

/-- The allocations overlap neither each other nor the system area (R69). -/
def allocationsOk (l : List WordRange) : Bool := apart l && l.all fun a => !WordRange.meets a (systemArea a.area)

end Sys2Proof.Machine
end

