-- ==== Sys2Proof/Machine/Online.lean ====
section
/-!
DEFINITION. Online change, forces and Hold (R168–R199): staging and its proof, LOAD, ACTIVATE and CANCEL, what
an activation does, the force table and its commands, VIEW, and stepping in Hold.
-/

namespace Sys2Proof.Machine

/-! ## The force table (R181, R182, R190) -/

/-- Whether an entry stands at a word of an image. -/
def Force.atWord (f : Force) (output : Bool) (index : Nat) : Bool := f.output == output && f.index == index

/-- Whether an entry is the named word force or bit force. -/
def Force.named (f : Force) (word output : Bool) (index bit : Nat) : Bool :=
  f.atWord output index && f.word == word && (word || f.bit == bit)

/-- Set one force (R181): a word force removes the bit forces of its word; a bit force on a word-forced word
changes that bit of its value. -/
def setForce (table : List Force) (f : Force) : List Force :=
  if f.word then table.filter (fun g => !g.atWord f.output f.index) ++ [f]
  else if table.any fun g => g.word && g.atWord f.output f.index then
    table.map fun g =>
      if g.word && g.atWord f.output f.index then
        { g with value := if bitOf f.value 0 then g.value ||| word (2 ^ f.bit) else g.value &&& ~~~ word (2 ^ f.bit) }
      else g
  else table.filter (fun g => !g.named false f.output f.index f.bit) ++ [f]

/-- Apply one force change to the table (R186). -/
def applyForceChange (table : List Force) : ForceChange → List Force
  | .set f => setForce table f
  | .clear w o i b => table.filter fun g => !g.named w o i b
  | .clearAll => []

/-- The table with every change of this tick applied: what a further command of the tick is checked against. -/
def State.forcesAhead (s : State) : List Force := s.online.forceChanges.foldl applyForceChange s.work.forces

/-- One force applied to a word (R183). -/
def Force.apply (f : Force) (w : Word) : Word :=
  if f.word then f.value
  else if bitOf f.value 0 then w ||| Sys2Proof.word (2 ^ f.bit) else w &&& ~~~ Sys2Proof.word (2 ^ f.bit)

/-- The forces of one image applied to it (R183). -/
def applyForces (output : Bool) (img : Tbl Word) : List Force → Tbl Word
  | [] => img
  | f :: fs =>
    applyForces output (if f.output == output then Tbl.set 0 img f.index (f.apply (Tbl.get 0 img f.index)) else img) fs

/-- AREA of a force: 0 input, 1 output. -/
def forceArea (output : Bool) : Nat := if output then 1 else 0

/-- The symbol at a force's address (R190): the TYPE 0 symbol of the bit, else the smallest other declaration
that covers the word, the lowest identity among equals. -/
def symbolAt (symbols : List Symbol) (word output : Bool) (index bit : Nat) : Option Symbol :=
  let covers (y : Symbol) : Bool :=
    y.area == forceArea output && decide (y.addr ≤ index) && decide (index < y.addr + y.len)
  let isBit (y : Symbol) : Bool := bitsOf y.meaning 17 14 == 0
  let exact := symbols.find? fun y => !word && covers y && isBit y && bitsOf y.meaning 13 9 == bit
  let better (a b : Symbol) : Bool := decide (a.len < b.len) || (a.len == b.len && decide (a.id < b.id))
  exact.orElse fun _ =>
    (symbols.filter fun y => covers y && !isBit y).foldl
      (fun best y => match best with | none => some y | some b => if better y b then some y else some b) none

/-- SYM and MEAN of a symbol, 0 if none (R182). -/
def symKey : Option Symbol → Nat × Word
  | some y => (y.id, y.meaning)
  | none => (0, 0)

/-- Whether a staged package alters the symbol or meaning at a force's address (R191). -/
def State.stagedAlters (s : State) (word output : Bool) (index bit : Nat) : Bool :=
  match s.online.staged with
  | some g =>
    symKey (symbolAt s.work.program.symbols word output index bit) !=
      symKey (symbolAt g.pkg.symbols word output index bit)
  | none => false

/-- Queue a force change for the boundary (R186); where no tick runs it acts and completes at once, and the consistency points
that a later start may restore hold it (R188). -/
def State.changeForces (s : State) (c : ForceChange) (k : Ticket) : State :=
  if s.md.mode.ticks then
    { s with online := { s.online with forceChanges := s.online.forceChanges ++ [c]
                                       forceTickets := s.online.forceTickets ++ [k] } }
  else
    let f (l : List Force) : List Force := applyForceChange l c
    let kept (p : Point) : Point := { p with state := { p.state with forces := f p.state.forces } }
    { s.complete k .done with
      work := { s.work with forces := f s.work.forces }
      persist := { s.persist with complete := s.persist.complete.map kept, outstanding := s.persist.outstanding.map kept } }

/-- FORCE_SET (R181, R185, R188, R191, R198). -/
def execForceSet (q : Req) (s : State) : Out :=
  .next (runCommand 0 0o044 2 q s fun s q k cred =>
    let area := bitsOf q.desc.a0 17 15
    let index := bitsOf q.desc.a0 14 0
    let bit := clampCount (bitsOf q.desc.a1 4 0)
    let isWord := bitOf q.desc.a2 0
    let out := decide (area = 1)
    let (sym, mean) := symKey (symbolAt s.work.program.symbols isWord out index bit)
    let f : Force := ⟨isWord, out, index, if isWord then 0 else bit,
      if isWord then q.desc.a3 else q.desc.a3 &&& 1, sym, mean, cred.role, cred.fp⟩
    if s.partnerHolds ∨ 2 ≤ area ∨ 0o077_000 ≤ index ∨ s.stagedAlters isWord out index bit ∨
        1024 < (applyForceChange s.forcesAhead (.set f)).length then
      s.complete k (.refused 0)
    else (s.changeForces (.set f) k).named .forceSet 0 0 cred [q.desc.a0.toNat, bit, f.value.toNat, 0])

/-- FORCE_CLEAR (R191, R198). -/
def execForceClear (q : Req) (s : State) : Out :=
  .next (runCommand 0 0o045 2 q s fun s q k cred =>
    let area := bitsOf q.desc.a0 17 15
    let index := bitsOf q.desc.a0 14 0
    let bit := clampCount (bitsOf q.desc.a1 4 0)
    let isWord := bitOf q.desc.a2 0
    let out := decide (area = 1)
    if s.partnerHolds ∨ 2 ≤ area ∨ s.stagedAlters isWord out index bit ∨
        !(s.forcesAhead.any fun f => f.named isWord out index (if isWord then 0 else bit)) then
      s.complete k (.refused 0)
    else (s.changeForces (.clear isWord out index (if isWord then 0 else bit)) k).named .forceCleared 0 0 cred
      [q.desc.a0.toNat, bit, 0, 0])

/-- FORCE_CLEAR_ALL (R191, R198). -/
def execForceClearAll (q : Req) (s : State) : Out :=
  .next (runCommand 0 0o046 2 q s fun s _ k cred =>
    if s.partnerHolds ∨ s.forcesAhead.any (fun f => s.stagedAlters f.word f.output f.index f.bit) then
      s.complete k (.refused 0)
    else (s.changeForces .clearAll k).named .forceCleared 0 0 cred [0, 0, 0, 0])

/-- An entry as FORCE_LIST returns it (R182). -/
def Force.words (f : Force) : List Word :=
  [Sys2Proof.word (flagNat f.word * 2 ^ 17 + flagNat f.output * 2 ^ 16 + f.index), Sys2Proof.word f.bit, f.value, Sys2Proof.word f.sym,
   Sys2Proof.word (f.sym / 2 ^ 18), f.meaning, Sys2Proof.word (f.role * 2 ^ 16 + f.fp % 2 ^ 16), 0]

/-- FORCE_LIST (R182, R198): up to 16 entries from the first named. -/
def execForceList (q : Req) (s : State) : Out :=
  .next (runCommand 0 0o047 1 q s fun s q k _ =>
    s.complete k { data := ((s.work.forces.drop (min 1023 q.desc.a0.toNat)).take 16).flatMap Force.words })

/-- VIEW (R184, R198): image or exchange words in the program or the field view. -/
def execView (q : Req) (s : State) : Out :=
  .next (runCommand 0 0o050 1 q s fun s q k _ =>
    let area := q.desc.a0.toNat
    let first := clampIndex area q.desc.a1.toNat
    let count := min (max 1 (min 64 q.desc.a2.toNat)) (areaLast area + 1 - first)
    let field := bitOf q.desc.a3 0
    let m := s.work.mortar
    let read (i : Nat) : Word :=
      match area with
      | 0 => if field then Tbl.get 0 m.inputField i else Tbl.get 0 m.input i
      | 1 => if field then Tbl.get 0 m.emitted i else m.outNow i
      | _ => Tbl.get 0 m.exch i
    if 3 ≤ area then s.complete k (.refused 0)
    else s.complete k { data := (List.range count).map fun i => read (first + i) })

/-! ## The program a package yields (R169, R171, R177) -/

/-- The words of a package for one tile's code: its segments over its vector block. -/
def Package.codeAt (p : Package) (t a : Nat) : Option Word :=
  let seg := p.segments.find? fun g => g.tile == t && decide (g.start ≤ a) && decide (a < g.start + g.words.length)
  match seg with
  | some g => some (g.words.getD (a - g.start) 0)
  | none =>
    if 64 ≤ a then none
    else (p.vectors.find? fun v => v.1 == t).map fun v => v.2.getD a 0

/-- The tables of a tile as its package gave them: without the loader's own slot (R55). -/
def State.tileTables (s : State) (t : Nat) : TileTables :=
  let m := s.mem t
  let own (l : List SlotEntry) : List Word := tableWords (l.filter fun e => e.kind != 4)
  ⟨t, own m.run, own m.start, m.sblo.toNat, m.sbhi.toNat⟩

/-- Whether the program gives a tile slots or a stack. -/
def TileMem.used (m : TileMem) : Bool := (m.run ++ m.start).any (fun e => e.kind != 4) || m.sbhi != 0

/-- The tables in force, of the tiles the program uses. -/
def State.ownTables (s : State) : List TileTables :=
  ((List.range s.tileCount).filter fun t => (s.mem t).used).map s.tileTables

/-- The tables a package leaves in force: its own, over those of the tiles it does not name. -/
def State.tablesAfter (s : State) (p : Package) : List TileTables :=
  if p.full then p.tables
  else p.tables ++ s.ownTables.filter fun x => !(p.tables.any fun y => y.tile == x.tile)

/-- The program as the loader reads it with a package's code over the running code (R57, R171). -/
def State.viewOf (s : State) (p : Package) : ProgView :=
  { code := fun t a => (Package.codeAt p t a).getD (if p.full then 0 else Tbl.get 0 (s.mem t).code a)
    given := p.vectors.map Prod.fst ++ p.segments.map Segment.tile
    tables := s.tablesAfter p
    tasks := p.tasks
    proof := p.proof
    level := p.level }

/-- The running program as the loader reads it: the tables of the tiles it uses. -/
def State.runningView (s : State) : ProgView :=
  { code := fun t a => Tbl.get 0 (s.mem t).code a
    given := []
    tables := s.ownTables
    tasks := s.work.program.tasks
    proof := s.work.program.proof
    level := s.work.program.level }

/-- The addresses a running program uses on a tile (R173, code 11): code segments; tile-data variables, stack,
trap frame and cell arrays. -/
def State.usesCode (s : State) (t a : Nat) : Bool :=
  s.work.program.segments.any fun g => g.tile == t && decide (g.start ≤ a) && decide (a < g.start + g.words.length)

/-- Data addresses the running program uses (R171, R173). -/
def State.usesData (s : State) (t a : Nat) : Bool :=
  let m := s.mem t
  decide (a < 16) || (decide (m.sblo.toNat ≤ a) && decide (a ≤ m.sbhi.toNat)) ||
  (s.work.program.symbols.any fun y => y.area == 3 && y.tile == t && decide (y.addr ≤ a) && decide (a < y.addr + y.len)) ||
  (slotsOf false s.runningView.tables ++ slotsOf true s.runningView.tables).any fun e =>
    e.1 == t && (cellArrays s.runningView t e.2.2).any fun c => decide (c.1 ≤ a) && decide (a < c.2)

/-- Symbols of a package whose identity the running program does not hold, or that move (R171, R177). -/
def State.newOrMoved (s : State) (p : Package) : List Symbol :=
  p.symbols.filter fun y =>
    match s.work.program.symbols.find? fun o => o.id == y.id with
    | none => true
    | some o => o.addr != y.addr || o.area != y.area || o.tile != y.tile

/-- Condition 11 (R173). -/
def State.occupied (s : State) (p : Package) : Option Refused :=
  let seg := p.segments.find? fun g => (List.range g.words.length).any fun i => s.usesCode g.tile (g.start + i)
  (seg.map fun g => ({ code := 11, tile := g.tile } : Refused)).orElse fun _ =>
    ((s.newOrMoved p).find? fun y => y.area == 3 && (List.range y.len).any fun i => s.usesData y.tile (y.addr + i)).map
      fun y => { code := 11, tile := y.tile }

/-- Condition 12 (R173): a symbol identity present in both programs keeps its meaning code and length. -/
def State.meaningOk (s : State) (p : Package) : Bool :=
  p.symbols.all fun y => s.work.program.symbols.all fun o => o.id != y.id || (o.meaning == y.meaning && o.len == y.len)

/-- Whether a force requires a disposition under a package (R190). -/
def Force.needsDisposition (p : Package) (f : Force) : Bool :=
  symKey (symbolAt p.symbols f.word f.output f.index f.bit) != (f.sym, f.meaning)

/-- The disposition a package gives a force. -/
def Force.disposition (p : Package) (f : Force) : Option Bool :=
  (p.dispositions.find? fun d => decide (d.ref.area ≤ 1) &&
    f.named d.word (d.ref.area == 1) d.ref.index (if d.word then 0 else d.ref.bit)).map Disposition.keep

/-- Condition 13 (R173). -/
def State.dispositionsOk (s : State) (p : Package) : Bool :=
  s.work.forces.all fun f => !f.needsDisposition p || (f.disposition p).isSome

/-- Condition 14 (R173): a kept variable that moves stays in its area and on its tile. -/
def State.crossOk (s : State) (p : Package) : Bool :=
  p.symbols.all fun y => s.work.program.symbols.all fun o =>
    o.id != y.id || (o.area == y.area && (y.area != 3 || o.tile == y.tile))

/-- First and last words of the system area of an image that R70 and the chapters of the functions assign: times, errors, the
partner (R260), alarms (R446), station bits, the inauguration block (R309) and the safety image; re-admission, update permitted,
the train bit (R308) and the check-in words (R451). -/
def systemWords (area : Nat) : List (Nat × Nat) :=
  match area with
  | 0 => [(0o077_000, 0o077_013), (0o077_020, 0o077_036), (0o077_040, 0o077_056), (0o077_060, 0o077_064), (0o077_700, 0o077_777)]
  | 1 => [(0o077_000, 0o077_016), (0o077_020, 0o077_021), (0o077_040, 0o077_057), (0o077_700, 0o077_777)]
  | _ => []

/-- Whether a word of the system area is assigned. -/
def systemAssigned (area i : Nat) : Bool := (systemWords area).any fun r => decide (r.1 ≤ i) && decide (i ≤ r.2)

/-- Whether a range lies wholly in another. -/
def WordRange.within (a b : WordRange) : Bool :=
  a.area == b.area && decide (b.first ≤ a.first) && decide (a.first + a.len ≤ b.first + b.len)

/-- The declarations of a program in the images: symbols and write sets (R69). -/
def declarations (symbols : List Symbol) (tasks : List TaskDecl) : List WordRange :=
  (symbols.filter fun y => decide (y.area ≤ 1)).map (fun y => ⟨y.area, y.addr, y.len⟩) ++
    tasks.flatMap fun d => d.writes.filter fun r => decide (r.area ≤ 1)

/-- Whether one declaration lies in one of the three places of R69. -/
def declarationOk (allocs : List WordRange) (r : WordRange) : Bool :=
  let sys := systemArea r.area
  if WordRange.meets r sys then (List.range r.len).all fun i => systemAssigned r.area (r.first + i)
  else
    match allocs.filter fun a => WordRange.meets a r with
    | [] => true
    | [a] => WordRange.within r a
    | _ => false

/-- The words of a symbol. -/
def Symbol.range (y : Symbol) : WordRange := ⟨y.area, y.addr, y.len⟩

/-- Whether two symbols may share words: bits of one word (TYPE 0, R170), or a bit within a word or a structure. -/
def symbolsShare (x y : Symbol) : Bool := bitsOf x.meaning 17 14 == 0 || bitsOf y.meaning 17 14 == 0

/-- Whether two declarations of the program's own area overlap (R69): symbols of different identities that are no bits, or write
sets of different tasks. DEDUCED: bits of one word, and a symbol within a write set, are no overlap of areas. -/
def ownApart (allocs : List WordRange) (symbols : List Symbol) : Bool :=
  let own := symbols.filter fun y => decide (y.area ≤ 1) && !(WordRange.meets (Symbol.range y) (systemArea y.area)) &&
    !(allocs.any fun a => WordRange.meets a (Symbol.range y))
  own.all fun x => own.all fun y => x.id == y.id || symbolsShare x y || !(WordRange.meets (Symbol.range x) (Symbol.range y))

/-- The allocations and the declarations of a program keep R69 (code 8). -/
def placesOk (allocs : List WordRange) (symbols : List Symbol) (tasks : List TaskDecl) : Bool :=
  allocationsOk allocs && (declarations symbols tasks).all (declarationOk allocs) && ownApart allocs symbols

/-- Condition 15 (R173): no entry of KIND 4, and only assigned words of the system area. -/
def fixedOk (p : Package) : Bool :=
  (p.tables.all fun x => (tableSlots x.run ++ tableSlots x.start).all fun e => e.kind != 4) &&
    (declarations p.symbols p.tasks).all fun r =>
      !(WordRange.meets r (systemArea r.area)) || (List.range r.len).all fun i => systemAssigned r.area (r.first + i)

/-- Whether a word lies in a write set of a program. -/
def inWriteSet (tasks : List TaskDecl) (area i : Nat) : Bool :=
  tasks.any fun d => d.writes.any fun r => r.area == area && decide (r.first ≤ i) && decide (i < r.first + r.len)

/-- The output and exchange words that lose their writer with a package (R178). -/
def State.lostWords (s : State) (p : Package) : List (Nat × Nat) :=
  (s.work.program.tasks.flatMap TaskDecl.writes).flatMap fun r =>
    ((List.range r.len).map fun i => (r.area, r.first + i)).filter fun w =>
      (w.1 == 1 || w.1 == 2) && !inWriteSet p.tasks w.1 w.2

/-- The release value of a word: 0 unless the package declares another (R178). -/
def Package.releaseValue (p : Package) (area i : Nat) : Word :=
  match p.releases.find? fun r => r.area == area && r.index == i with | some r => r.value | none => 0

/-- The line of a variable's word. -/
def varLine (area t i : Nat) : Nat := if area = 3 then dataLine t i else mortarLine area i

/-- The symbols that the activation writes (R176, R177): those that move or take their REINIT values, and new ones of the output
image and the exchange area; new tile data has its values from staging. -/
def State.activationSymbols (s : State) (p : Package) : List Symbol :=
  let old (y : Symbol) : Bool := s.work.program.symbols.any fun o => o.id == y.id
  p.symbols.filter fun y => y.area != 0 &&
    (if old y then y.reinit || (s.newOrMoved p).any (fun z => z.id == y.id) else y.area != 3)

/-- Lines the copies of an activation dirty (R173, R176). -/
def State.activationLines (s : State) (p : Package) : Nat :=
  let copied := (s.activationSymbols p).flatMap fun y => (List.range y.len).map fun i => varLine y.area y.tile (y.addr + i)
  (copied ++ (s.lostWords p).map fun w => mortarLine w.1 w.2).eraseDups.length

/-- Whether the arch is configured (R48). -/
def State.archConfigured (s : State) : Bool := s.inArch

/-- The proof of a package (R173): a full package under R58 and codes 12, 13 and 15; a change package under every
code, code 7 with the activation's copies too. DESIGN CHOICE: a package whose check value fails is refused with code 8. -/
def State.provePackage (s : State) (p : Package) : Option Refused :=
  let base := proveProgram (s.viewOf p) s.tick s.archConfigured s.tileCount (if p.full then 0 else s.activationLines p)
  base.orElse fun _ =>
  (unlessOk (placesOk s.allocations p.symbols p.tasks && p.checkOk) { code := 8 }).orElse fun _ =>
  (if p.full then none
   else (unlessOk (decide (p.base = s.work.program.id)) { code := 10 }).orElse fun _ => s.occupied p).orElse fun _ =>
  (unlessOk (s.meaningOk p) { code := 12 }).orElse fun _ =>
  (unlessOk (s.dispositionsOk p) { code := 13 }).orElse fun _ =>
  (unlessOk (p.full || s.crossOk p) { code := 14 }).orElse fun _ =>
  unlessOk (fixedOk p) { code := 15 }

/-! ## Staging (R171–R173) -/

/-- One word that staging writes: into tile code, tile data, or the package area. -/
inductive StageWrite where
  | code (t a : Nat) (w : Word)
  | data (t a : Nat) (w : Word)
  | area
deriving DecidableEq, Repr

/-- The initial words of a symbol, 0 where none are declared; a cell's c5 is 0 (R89, R91, R177). -/
def Symbol.initAt (y : Symbol) (i : Nat) : Word :=
  if bitsOf y.meaning 17 14 = 6 ∧ i % 8 = 5 then 0 else y.init.getD i 0

/-- All initial words of a symbol. -/
def Symbol.inits (y : Symbol) : List Word := (List.range y.len).map (Symbol.initAt y)

/-- Every word staging writes, in order (R171): code and new tile-data variables of a change package into addresses the running
program does not use (one it does use is left alone, and the proof refuses the package); initial, REINIT and release values into
the package area. The tables stand in shadow tables of the footing die. -/
def State.stageWrites (s : State) (p : Package) : List StageWrite :=
  if p.full then
    p.segments.flatMap fun g => g.words.map fun _ => StageWrite.area
  else
    let new (y : Symbol) : Bool := !(s.work.program.symbols.any fun o => o.id == y.id)
    (p.segments.flatMap fun g => ((List.range g.words.length).filter fun i => !s.usesCode g.tile (g.start + i)).map fun i =>
      StageWrite.code g.tile (g.start + i) (g.words.getD i 0)) ++
    ((p.symbols.filter fun y => y.area == 3 && new y).flatMap fun y =>
      ((List.range y.len).filter fun i => !s.usesData y.tile (y.addr + i)).map fun i =>
        StageWrite.data y.tile (y.addr + i) (Symbol.initAt y i)) ++
    ((p.symbols.filter fun y => y.area != 0 && (y.reinit || (y.area != 3 && new y))).flatMap fun y => (Symbol.inits y).map fun _ => StageWrite.area) ++
    p.releases.map fun _ => StageWrite.area

/-- Perform staged writes. -/
def State.runStageWrites (s : State) : List StageWrite → State
  | [] => s
  | .code t a w :: rest => (s.writeCode t a w).runStageWrites rest
  | .data t a w :: rest => (s.writeData t a w).runStageWrites rest
  | .area :: rest => s.runStageWrites rest

/-- A refusal as a completion reports it (R58, R276): its code, the tile and the slot. -/
def Refused.reply (r : Refused) : Reply := { status := 2, code := r.code, detail := r.tile % 32 + 32 * (r.slot % 64) }

/-- OC_STAT shows the last refusal (R180). -/
def State.noteRefusal (s : State) (r : Refused) : State := { s with online := { s.online with refusal := r } }

/-- Staging ends with the proof, reported through OC_STAT (R173): a refused package is discarded, and an event tells the code,
tile and slot, and for code 9 the block and its cause (R99). LOAD and ACTIVATE report it until another package is staged. -/
def State.endStaging (s : State) (g : Staged) : State :=
  match s.provePackage g.pkg with
  | none =>
    { s with online := { s.online with
        staged := some { g with state := 3, proved := s.tick, provedAllocs := s.allocations } } }
  | some r =>
    let s1 := (s.named .packageRefused 0 0 {} [r.code, r.tile + 32 * r.slot, r.block, r.cause]).noteRefusal r
    { s1 with online := { s1.online with staged := none, failed := some r } }

/-- Whether the last complete point lags the end of its tick by more than 2 ms (R77, R172). -/
def State.lagBeyond (s : State) : Bool := s.persist.lagging

/-- The modes in which a package may be staged (R168). -/
def State.mayStage (s : State) (p : Package) : Bool :=
  match s.md.mode with
  | .stop => true
  | .run | .hold | .track => !p.full
  | _ => false

/-- The last UPD_BLOCK of a program package completes when the package is staged (R471). -/
def State.endBlock (s : State) (rep : Reply) : State :=
  match s.firmware.lastBlock with
  | some k => ({ s with firmware := { s.firmware with lastBlock := none } }).complete k rep
  | none => s

/-- PACKAGE_STAGING (R172): one millisecond of staging, at most 2,000 words, pausing while write-behind lags. -/
def execPackageStaging (p : Package) (words : Nat) (s : State) : Out :=
  if s.lagBeyond then .next { s with online := { s.online with paused := s.online.staged.any fun g => g.state == 1 } }
  else
    let start (g : Staged) : State :=
      let all := s.stageWrites g.pkg
      let n := min words 2000
      let s1 := s.runStageWrites ((all.drop g.written).take n)
      let g1 := { g with written := min g.total (g.written + n) }
      let s2 := { s1 with online := { s1.online with transferred := false, staged := some g1, paused := false, failed := none } }
      if g1.total ≤ g1.written then (s2.endBlock .done).endStaging { g1 with state := 2 } else s2
    match s.online.staged with
    | some g => if g.state = 1 ∧ !s.online.paused then .next (start g) else .next s
    | none =>
      if !s.online.transferred ∨ !s.mayStage p then .next s
      else .next (start ⟨p, 0, (s.stageWrites p).length, 1, s.tick, []⟩)

/-- STAGING_RESUME (R77, R172): the lag is back within 2 ms; staging goes on, and a lag that arises again is told again. -/
def execStagingResume (s : State) : Out :=
  .next { s with online := { s.online with paused := false }, persist := { s.persist with lagging := false } }

/-- PACKAGE_RELAY (R175): on the primary, the standby's report sets OC_STAT.ARCHRDY; on a standby, the relayed
package begins to be staged, and PACKAGE_STAGING stages and proves it (R172). -/
def execPackageRelay (p : Package) (ok : Bool) (s : State) : Out :=
  if !s.domainOn 2 then .next s
  else if s.md.mode = .track then
    if s.online.staged.isSome ∨ !s.mayStage p then .next s
    else .next { s with online := { s.online with staged := some ⟨p, 0, (s.stageWrites p).length, 1, s.tick, []⟩, paused := false, failed := none } }
  else if s.arch.lstate = 5 ∧ s.online.staged.isSome then
    .next { s with online := { s.online with archReady := ok } }
  else .next s

/-! ## Activation (R174–R180) -/

/-- Whether a tile has an open activation (R193): one stopped by a breakpoint, or stepped since, or about to stop. -/
def State.anyOpen (s : State) : Bool := s.tiles.any fun e => Tile.isOpen e.2

/-- A tick number lies in the future (R174). -/
def inFuture (now a : Nat) : Bool :=
  let d := (a + 2 ^ 36 - now) % 2 ^ 36
  decide (1 ≤ d) && decide (d < 2 ^ 35)

/-- What LOAD and ACTIVATE answer with no package staged: the refusal of the last one's proof, else code 0 (R58). -/
def State.noPackage (s : State) : Reply := match s.online.failed with | some r => r.reply | none => .refused 0

/-- ACTIVATE (R174, R173 code 15): arms the activation at the next boundary or at a named future tick. -/
def execActivate (q : Req) (s : State) : Out :=
  .next (runCommand 0 0o040 2 q s fun s q k cred =>
    let sched := bitOf q.desc.a0 0
    let a := joinNat q.desc.a1 q.desc.a2
    match s.online.staged with
    | none => s.complete k s.noPackage
    | some g =>
      if s.online.armed.isSome ∨ g.state ≠ 3 ∨ g.pkg.full ∨
          !(s.md.mode = .stop ∨ s.md.mode = .run ∨ (s.md.mode = .hold ∧ !s.anyOpen)) then
        s.complete k (.refused 0)
      else if sched ∧ !inFuture s.tickNumber a then (s.noteRefusal { code := 16 }).complete k (.refused 16)
      else
        let again := if g.proved = s.tick ∧ g.provedAllocs = s.allocations then none else s.provePackage g.pkg
        match again with
        | some r => (s.noteRefusal r).complete k r.reply
        | none =>
          { s with online := { s.online with staged := some { g with state := 4 }, armed := some k, armedBy := cred,
                                             sched := sched, atk := if sched then a else s.online.atk } })

/-- CANCEL (R180): discards a staged package; an armed ACTIVATE completes ABORTED. -/
def execCancel (q : Req) (s : State) : Out :=
  .next (runCommand 0 0o041 2 q s fun s q k cred =>
    match s.online.staged with
    | none => s.complete k (.refused 0)
    | some _ =>
      let s1 := match s.online.armed with | some a => s.complete a .aborted | none => s
      let s2 := { s1 with online := { s1.online with staged := none, armed := none, sched := false, archReady := false }
                          arch := { s1.arch with activateMark := none } }
      (s2.changedBy cred q).complete k .done)

/-- The code memory of a tile after a package's segments and vectors (R169). -/
def putCode (p : Package) (t : Nat) (code : Tbl Word) : Tbl Word :=
  let c1 := (p.vectors.filter fun v => v.1 == t).foldl (fun c v => Tbl.setMany 0 c 0 v.2) code
  (p.segments.filter fun g => g.tile == t).foldl (fun c g => Tbl.setMany 0 c g.start g.words) c1

/-- The run and start tables in force with the safety interface task in slot 0 of tile 0 (R55). -/
def withSafety (t : Nat) (l : List SlotEntry) : List SlotEntry := if t = 0 then safetySlot :: l else l

/-- A tile's memories and tables after a package's tables become active: a full package leaves none of the old ones, and the
safety interface's slot stands on tile 0 whatever the package gives (R55). -/
def putTables (p : Package) (t : Nat) (m : TileMem) : TileMem :=
  match p.tables.find? fun x => x.tile == t with
  | some x => { m with run := withSafety t (tableSlots x.run), start := withSafety t (tableSlots x.start)
                       sblo := BitVec.ofNat 17 x.sblo, sbhi := BitVec.ofNat 17 x.sbhi }
  | none => if p.full then { m with run := withSafety t [], start := withSafety t [], sblo := 0, sbhi := 0 } else m

/-- Read a variable of the running program before any copy: tile data, output or exchange. -/
def State.readVar (s : State) (area t a : Nat) : Word :=
  match area with
  | 1 => s.work.mortar.outNow a
  | 2 => (Tbl.get none s.work.mortar.exchNew a).getD (Tbl.get 0 s.work.mortar.exch a)
  | 3 => Tbl.get 0 (s.mem t).data a
  | _ => 0

/-- Write a variable at activation: tile data, output or exchange; nothing for the input image (R177). -/
def State.writeVar (s : State) (area t a : Nat) (w : Word) : State :=
  match area with
  | 1 =>
    let m := s.work.mortar
    (s.setMortar { m with out := Tbl.set 0 m.out a w, outNew := Tbl.set none m.outNew a none }).dirty (mortarLine 1 a)
  | 2 =>
    let m := s.work.mortar
    (s.setMortar { m with exch := Tbl.set 0 m.exch a w, exchNew := Tbl.set none m.exchNew a none }).dirty (mortarLine 2 a)
  | 3 => s.writeData t a w
  | _ => s

/-- Write a list of values from an address up. -/
def State.writeVars (s : State) (area t a : Nat) : List Word → State
  | [] => s
  | w :: ws => (s.writeVar area t a w).writeVars area t (a + 1) ws

/-- The value a symbol takes at activation, if any is written (R177): copied when it moves, its initial value when
it is new or marked REINIT. `old` is the state before any copy. -/
def State.migrated (old : State) (y : Symbol) : Option (List Word) :=
  match old.work.program.symbols.find? fun o => o.id == y.id with
  | none => some (Symbol.inits y)
  | some o =>
    if y.reinit then some (Symbol.inits y)
    else if o.addr = y.addr then none
    else some ((List.range y.len).map fun i => old.readVar o.area o.tile (o.addr + i))

/-- Data migration by symbol identity (R177). -/
def State.migrate (s old : State) : List Symbol → State
  | [] => s
  | y :: ys =>
    match old.migrated y with
    | some ws => (s.writeVars y.area y.tile y.addr ws).migrate old ys
    | none => s.migrate old ys

/-- Words that lose their writer take their release values (R178). -/
def State.releaseWords (s : State) (p : Package) : List (Nat × Nat) → State
  | [] => s
  | w :: ws => (s.writeVar w.1 0 w.2 (Package.releaseValue p w.1 w.2)).releaseWords p ws

/-- The forces that a package's dispositions clear (R190). -/
def clearedForces (p : Package) (table : List Force) : List Force := table.filter fun f => f.disposition p == some false

/-- The event of a force cleared (R189). -/
def State.tellCleared (s : State) (cred : Cred) : List Force → State
  | [] => s
  | f :: fs => (s.named .forceCleared 0 0 cred [forceArea f.output * 2 ^ 15 + f.index, f.bit, 0, 0]).tellCleared cred fs

/-- The force table as disposed (R190). -/
def disposeForces (p : Package) (table : List Force) : List Force :=
  table.filterMap fun f =>
    match f.disposition p with
    | some false => none
    | some true =>
      if f.needsDisposition p then
        let (sym, mean) := symKey (symbolAt p.symbols f.word f.output f.index f.bit)
        some { f with sym := sym, meaning := mean }
      else some f
    | none => some f

/-- Mark the lines of the listed words. -/
def State.dirtyKeys (s : State) (line : Nat → Nat) (ks : List Nat) : State := ks.foldl (fun (s : State) i => s.dirty (line i)) s

/-- Put a package's code and tables into every tile; the lines of the code words written are dirty (R73). -/
def State.putPackage (s : State) (p : Package) : List Nat → State
  | [] => s
  | t :: ts =>
    let m := s.mem t
    let code := putCode p t (if p.full then [] else m.code)
    let touched := (Tbl.keys m.code ++ Tbl.keys code).filter fun a => Tbl.get 0 m.code a != Tbl.get 0 code a
    ((s.dirtyKeys (codeLine t) touched).setMem t (putTables p t { m with code := code })).putPackage p ts

/-- The program record of a package. -/
def Package.program (p : Package) (gen : Nat) : Program :=
  { loaded := true, id := p.id, gen := gen, level := p.level, segments := p.segments, symbols := p.symbols,
    tasks := p.tasks, proof := p.proof }

/-- The words of code a program reaches on a tile: its slots' instructions and course blocks. -/
def reachedCode (v : ProgView) (t : Nat) : List Nat :=
  let slots := ((slotsOf false v.tables ++ slotsOf true v.tables).filter fun x => x.1 == t)
  slots.flatMap fun x => slotCode v t x.2.2.entry ++ blocksOf v t x.2.2.entry

/-- Whether a segment holds one of the addresses. -/
def Segment.holdsAny (g : Segment) (l : List Nat) : Bool := l.any fun a => decide (g.start ≤ a) && decide (a < g.start + g.words.length)

/-- The segments of the program after a change package: unchanged code stays in place; a segment that the program reached before
and reaches no more is free (R171, R177). DEDUCED: one that no slot reaches, as a table of constants, stays in use. -/
def State.keptSegments (s : State) (p : Package) : List Segment :=
  p.segments ++ s.work.program.segments.filter fun g =>
    !(p.segments.contains g) &&
      (Segment.holdsAny g (reachedCode (s.viewOf p) g.tile) || !Segment.holdsAny g (reachedCode s.runningView g.tile))

/-- The triggers a package adds: those its task did not have (R179). -/
def addedTriggers (old new : List TaskDecl) : List (Nat × Trigger) :=
  new.flatMap fun d => (d.triggers.filter fun g => !(old.any fun o => o.task == d.task && o.triggers.contains g)).map
    fun g => (d.task, g)

/-- An activation (R176–R179): tables, vectors, stack bounds, force dispositions, OC_PRG and OC_GEN, then the
copies and the initial, REINIT and release values. -/
def State.activateNow (s : State) (g : Staged) : State :=
  let p := g.pkg
  let gen := inc18 s.work.program.gen
  let s1 := s.putPackage p (List.range s.tileCount)
  let prog := { Package.program p gen with segments := s.keptSegments p }
  let s2 := { s1 with work := { s1.work with program := prog, forces := disposeForces p s1.work.forces, newTriggers := addedTriggers s1.work.program.tasks p.tasks } }
  let s3 := (s2.migrate s p.symbols).releaseWords p (s.lostWords p)
  let s4 := { s3 with programCred := s3.online.armedBy, pages := { s3.pages with appendDue := true } }
  let s5 := (s4.named .activated 0 0 s4.programCred [p.id % 2 ^ 18, p.id / 2 ^ 18, gen, 0]).tellCleared s4.programCred
    (clearedForces p s.work.forces)
  { s5 with online := { s5.online with staged := none, sched := false, archReady := false } }

/-- What an application slot yields of the working state: code, tables and vector blocks, the program's
declarations and the force table (R429). -/
def Work.program_ (w : Work) : Work :=
  { mem := Tbl.mapEntries {} (fun _ m => { m with data := [] }) w.mem, program := w.program, forces := w.forces }

/-- LOAD (R168, R428): in Stop, a staged and proved full package becomes the program; the next Run request makes
a cold restart with CAUSE 4. -/
def execLoad (q : Req) (s : State) : Out :=
  .next (runCommand 0 0o042 2 q s fun s _ k cred =>
    match s.online.staged with
    | none => s.complete k s.noPackage
    | some g =>
      if s.md.mode ≠ .stop ∨ !g.pkg.full ∨ g.state ≠ 3 then s.complete k (.refused 0)
      else
        let before := s.work
        let s1 := s.putPackage g.pkg (List.range s.tileCount)
        let w := { s1.work with program := Package.program g.pkg 0, forces := disposeForces g.pkg s1.work.forces }
        let s2 := { s1 with work := w, programCred := cred, md := { s1.md with coldCause := 4 },
                            pages := { s1.pages with appSlot := !s1.pages.appSlot, otherImage := some before.program_, image := w.program_,
                                                     appended := 0 },
                            online := { s1.online with staged := none } }
        ((s2.named .programLoaded 0 0 cred [g.pkg.id % 2 ^ 18, g.pkg.id / 2 ^ 18, 0, 0]).tellCleared cred
          (clearedForces g.pkg s.work.forces)).complete k .done)

/-! ## Stepping in Hold (R193, R196) -/

/-- Whether STEP or RUN_TILE is under way on a tile. -/
def State.isStepping (s : State) (t : Nat) : Bool := s.online.stepping.any fun e => e.1 == t

/-- Let a stopped tile run on: for a number of retire steps, or freely. Its activation stays open (R193). -/
def State.resumeTile (s : State) (t : Nat) (steps : Option Nat) (k : Ticket) : State :=
  let x := s.tile t
  { s.setTile t { x with activation := x.activation.map fun a => { a with stopped := false, stepsLeft := steps } } with
    online := { s.online with stepping := s.online.stepping ++ [(t, k)] } }

/-- What STEP and RUN_TILE share: only in Hold, on a tile whose activation is open (R196, R199). -/
def stepTile (steps : Option Nat) (t : Nat) (s : State) (k : Ticket) : State :=
  if s.isStepping t then s.complete k .busy
  else
    let s0 := if s.tileCount ≤ t then s else s.settle t
    if s0.md.mode ≠ .hold ∨ s0.tileCount ≤ t ∨ !Tile.isStopped (s0.tile t) then s0.complete k (.refused 0)
    else s0.resumeTile t steps k

/-- STEP (R196): 1–512 retire steps of the open activation of one tile. -/
def execStep (q : Req) (s : State) : Out :=
  .next (runCommand 0 0o052 2 q s fun s q k _ =>
    stepTile (some (max 1 (min 512 q.desc.a1.toNat))) q.desc.a0.toNat s k)

/-- RUN_TILE (R196). -/
def execRunTile (q : Req) (s : State) : Out :=
  .next (runCommand 0 0o053 2 q s fun s q k _ => stepTile none q.desc.a0.toNat s k)

/-- The STEP or RUN_TILE of a tile completes ABORTED. -/
def State.abortStepping (s : State) (t : Nat) : State :=
  let hit := s.online.stepping.filter fun e => e.1 == t
  ({ s with online := { s.online with stepping := s.online.stepping.filter fun e => e.1 != t } }).completeAll .aborted (hit.map Prod.snd)

/-- End an open activation: its held writes are discarded, no overrun is counted (R196). -/
def State.abandonBy (s : State) (t : Nat) (cred : Cred) : State :=
  match (s.tile t).activation with
  | none => s
  | some a => (s.named .abandoned 2 t cred [t, a.entry.task, s.tickNumber % 2 ^ 18, s.tickNumber / 2 ^ 18]).closeActivation t

/-- An open activation is abandoned by the Keystone itself (R197). -/
def State.abandon (s : State) (t : Nat) : State := s.abandonBy t {}

/-- ABANDON (R196). DESIGN CHOICE: a STEP or RUN_TILE under way on the tile completes ABORTED. -/
def execAbandon (q : Req) (s : State) : Out :=
  .next (runCommand 0 0o054 2 q s fun s q k cred =>
    let t := q.desc.a0.toNat
    let s0 := if s.tileCount ≤ t then s else s.settle t
    if s0.md.mode ≠ .hold ∨ s0.tileCount ≤ t ∨ !Tile.isOpen (s0.tile t) then s0.complete k (.refused 0)
    else ((s0.abortStepping t).abandonBy t cred).complete k .done)

/-- STEP_TICK (R196): 1–1,000 whole ticks as in Run; refused while any activation is open. -/
def execStepTick (q : Req) (s : State) : Out :=
  .next (runCommand 0 0o055 2 q s fun s q k _ =>
    if s.online.stepTickTicket.isSome then s.complete k .busy
    else if s.md.mode ≠ .hold ∨ s.anyOpen then s.complete k (.refused 0)
    else { s with online := { s.online with stepTicks := max 1 (min 1000 q.desc.a0.toNat), stepTickTicket := some k } })

end Sys2Proof.Machine
end

