-- ==== Sys2Proof/Machine/NonVolatile.lean ====
section
/-!
DEFINITION. The non-volatile memories, the event recorder, parameter blocks and spread counters
(R400–R433), and the commands of rings 4 and 5.
-/

namespace Sys2Proof.Machine

/-! ## CRC-18 (R410) -/

/-- One bit into the CRC (R410). -/
def crcBit (crc : Word) (v : Bool) : Word :=
  if bitOf crc 17 != v then (crc <<< 1) ^^^ 0o465_233 else crc <<< 1

/-- One word into the CRC, most significant bit first (R410). -/
def crcWord (crc v : Word) : Word := (List.range 18).foldl (fun c i => crcBit c (bitOf v (17 - i))) crc

/-- The CRC-18 of a list of words (R410). -/
def crc18 (ws : List Word) : Word := ws.foldl crcWord 0o777_777

/-- The valid mark of every non-volatile record (R404, R409, R420). -/
def validMark : Word := 0o525_252

/-! ## Write-behind (R73–R77, R403) -/

/-- The closing record of a point (R404): k0–k12. -/
def Point.words (p : Point) : List Word :=
  let head : List Word :=
    [word p.serial, word (p.serial / 2 ^ 18), word (p.serial / 2 ^ 36), word p.count, word (p.count / 2 ^ 18), word (p.count / 2 ^ 36),
     lowWord p.utcSec, highWord p.utcSec, word p.utcSub, lowWord p.lines, highWord p.lines]
  head ++ [crc18 head, validMark]

/-- The closing slot of a point (R403). -/
def Point.slot (p : Point) : Nat := p.serial % 2

/-- The seal record (R407): s0–s10. -/
def SealRecord.words (r : SealRecord) : List Word :=
  let head : List Word :=
    [word r.serial, word (r.serial / 2 ^ 18), word (r.serial / 2 ^ 36), word r.mode.code, lowWord r.utcSec, highWord r.utcSec,
     word r.utcSub, lowWord r.sample, highWord r.sample]
  head ++ [crc18 head, validMark]

/-- WRITE_BEHIND_COPY (R73, R403): lines of the oldest point not complete are written. -/
def execWriteBehindCopy (lines : Nat) (s : State) : Out :=
  match s.persist.outstanding with
  | p :: rest => .next { s with persist := { s.persist with outstanding := { p with left := p.left - lines } :: rest } }
  | [] => .next s

/-- The oldest point is complete: after its last line, its closing record, whose valid mark sets CONT (R403, R404, R436). With none
outstanding the lag is over (R77). -/
def State.completePoint (s : State) : State :=
  match s.persist.outstanding with
  | p :: rest =>
    if p.left = 0 then
      { s with persist := { s.persist with outstanding := rest, complete := some p,
                                           lagging := s.persist.lagging && !rest.isEmpty }
               clock := s.clock.setCont true }
    else s
  | [] => s

/-- CONSISTENCY_POINT_COMPLETE (R403). -/
def execConsistencyPointComplete (s : State) : Out := .next s.completePoint

/-- WRITE_BEHIND_LAG (R77): error cause 3 in the tick in which the lag arises, and an event. -/
def execWriteBehindLag (s : State) : Out :=
  if s.persist.outstanding.isEmpty ∨ s.persist.lagging then .next s
  else
    let s1 := { s with persist := { s.persist with lagging := true } }
    .next ((s1.raise 3).named .writeBehindLag 0 0 {} [0, 0, s.tickNumber % 2 ^ 18, s.tickNumber / 2 ^ 18])

/-! ## The recorder (R409–R413) -/

/-- The 16 words of a record (R409). -/
def Record.words (r : Record) : List Word :=
  let e := r.event
  let d (i : Nat) : Word := word (e.data.getD i 0)
  let head : List Word :=
    [lowWord r.seq, highWord r.seq, lowWord r.sec, highWord r.sec, word r.sub,
     (e.code.word &&& 0o377_777) ||| word (flagNat r.cont * 2 ^ 17),
     word (e.level * 2 ^ 15 + e.index % 2 ^ 15), word (e.role * 2 ^ 16 + e.fp % 2 ^ 16)]
  let data : List Word := [d 0, d 1, d 2, d 3]
  head ++ [word r.rep, word r.last] ++ data ++ [crc18 (head ++ data), validMark]

/-- Slots of the recorder (R409). -/
def recorderSlots : Nat := 262144

/-- The record of a sequence number, when it still stands (R411, R433). -/
def Recorder.find (r : Recorder) (seq : Nat) : Option Record :=
  match Tbl.get none r.records (seq % recorderSlots) with
  | some x => if x.seq = seq then some x else none
  | none => none

/-- An occurrence repeats an open record: CODE, w6 and w7 are equal (R412). -/
def Record.repeatedBy (r : Record) (e : Event) : Bool :=
  decide (r.event.code = e.code) && r.event.level == e.level && r.event.index == e.index && r.event.role == e.role &&
    r.event.fp == e.fp

/-- Whole seconds from a record to a repeat (R409). -/
def secondsSince (sec sub sec' sub' : Nat) : Nat := (sec' * 2 ^ 18 + sub' - (sec * 2 ^ 18 + sub)) / 2 ^ 18

/-- Write a new record: the next SEQ, overwriting the oldest when full; at most 32 records stay open, `closed`
no longer among them (R411, R412). -/
def Recorder.append (r : Recorder) (w : Waiting) (cont : Bool) (rep : Nat) (closed : Option Nat) : Recorder :=
  let slot := r.seq % recorderSlots
  let old := (Tbl.get none r.records slot).isSome
  let kept := r.opened.filter fun q => some q != closed
  let opened := kept ++ [r.seq]
  { r with
    records := Tbl.set none r.records slot (some ⟨r.seq, w.sec, w.sub, cont, w.event, min 0o777_777 rep, 0⟩)
    seq := (r.seq + 1) % 2 ^ 36
    ovw := (r.ovw + flagNat old) % 2 ^ 36
    opened := opened.drop (opened.length - 32) }

/-- Write one waiting event: fold it into its open record, continue a saturated one, or open a new one (R411,
R412). -/
def Recorder.take (r : Recorder) (w : Waiting) : Recorder :=
  match (r.opened.filterMap r.find).find? fun x => x.repeatedBy w.event with
  | none => r.append w false w.repeats none
  | some x =>
    let last := secondsSince x.sec x.sub w.sec w.sub
    let rep := x.rep + 1 + w.repeats
    if 0o777_777 < rep ∨ 0o777_777 < last then r.append w true w.repeats (some x.seq)
    else { r with records := Tbl.set none r.records (x.seq % recorderSlots) (some { x with rep := rep, last := last }) }

/-- Write the oldest waiting event (R411). -/
def State.writeRecord (s : State) : State :=
  match s.recorder.queue with
  | w :: rest => { s with recorder := ({ s.recorder with queue := rest }).take w }
  | [] => s

/-- A number of waiting events are written. -/
def State.flushRecords (s : State) : Nat → State
  | 0 => s
  | n + 1 => s.writeRecord.flushRecords n

/-- Every waiting event is written (R407, R411). -/
def State.writeQueue (s : State) : State := s.flushRecords s.recorder.queue.length

/-- RECORD_WRITE (R411). -/
def execRecordWrite (s : State) : Out := .next s.writeRecord

/-- SQUALL_CLOSE (R412): SQUALL has passed without a repeat. -/
def execSquallClose (seq : Nat) (s : State) : Out :=
  .next { s with recorder := { s.recorder with opened := s.recorder.opened.filter fun q => q != seq } }

/-- The first `n` records present from a sequence number upward, within `fuel` numbers (R413, R431). -/
def Recorder.recordsFrom (r : Recorder) (n : Nat) : Nat → Nat → List Record
  | _, 0 => []
  | seq, fuel + 1 =>
    if n = 0 ∨ r.seq ≤ seq then []
    else match r.find seq with
      | some x => x :: recordsFrom r (n - 1) (seq + 1) fuel
      | none => recordsFrom r n (seq + 1) fuel

/-- The records RC_READ and RC_EXPORT return: from the first SEQ not below the one named. -/
def State.readRecords (s : State) (first n : Nat) : List Record :=
  let start := max first (s.recorder.seq - recorderSlots)
  s.recorder.recordsFrom n start (s.recorder.seq - start)

/-- RC_READ (R413, R431). -/
def execRcRead (q : Req) (s : State) : Out :=
  .next (runCommand 4 0o170 1 q s fun s q k _ =>
    let l := s.readRecords (joinNat q.desc.a0 q.desc.a1) (clampTo 1 16 q.desc.a2.toNat)
    s.complete k { data := l.flatMap Record.words })

/-- RC_LOG (R431): an application event, with LEVEL 7 and the posting task's number. -/
def execRcLog (q : Req) (s : State) : Out :=
  .next (runCommand 4 0o171 1 q s fun s q k cred =>
    let task := match q.origin with | .tile _ task => task | _ => 0
    let d (i : Nat) : Nat := (q.data.getD i 0).toNat
    (s.record { code := .given (clampTo 0o200_000 0o377_777 q.desc.a0.toNat), level := 7, index := task,
                role := cred.role, fp := cred.fp, data := [d 0, d 1, d 2, d 3] }).complete k .done)

/-- RC_EXPORT (R431, R460): the records, then a trailer of 36 words: the device fingerprint and the signature,
whose octets are free values with bit 8 always 0. -/
def execRcExport (q : Req) (s : State) : Out :=
  .next (runCommand 4 0o172 1 q s fun s q k _ =>
    let l := s.readRecords (joinNat q.desc.a0 q.desc.a1) (clampTo 1 4096 q.desc.a2.toNat)
    let fp := (List.range 4).map fun i => Config.deviceFp i
    let sig := (List.range 32).map fun i => Config.freeWord (s.fresh + i) &&& 0o377_377
    ({ s with fresh := s.fresh + 32 }).complete k { data := l.flatMap Record.words ++ fp ++ sig })

/-! ## Pages (R414–R419) -/

/-- Pages of the store, and the first application page (R414, R415). -/
def pageCount : Nat := 8192
/-- The first application page (R415). -/
def firstAppPage : Nat := 2048

/-- The 64 words of a page. -/
def PageStore.page (ps : PageStore) (p : Nat) : List Word := Tbl.getMany 0 ps.words (64 * p) 64

/-- A page cut off by a power loss and not written since (R419). -/
def PageStore.bad (ps : PageStore) (p : Nat) : Bool := Tbl.get false ps.undefined p

/-- The page under write (R414). -/
def PageStore.writing (ps : PageStore) : Option Nat :=
  if ps.busy then (ps.jobs.head?.bind fun j => j.pages.head?).map fun x => x.1 else none

/-- The master a page-store request belongs to (R417). -/
def State.pageOwner (s : State) (r : Nat) : Origin → Nat
  | .ring _ => (s.ring r).owner
  | .tile t _ => t + 8
  | .session _ => 0

/-- The words a write leaves in one page: what it covers, and for the rest what the page holds, which is a free
value in a page left undefined (R416, R419). -/
def State.mergePage (s : State) (p off : Nat) (ws : List Word) : List Word :=
  let old (i : Nat) : Word := if s.pages.bad p then Config.freeWord (s.fresh + 64 * p + i) else Tbl.get 0 s.pages.words (64 * p + i)
  (List.range 64).map fun i => if off ≤ i then (ws[i - off]?).getD (old i) else old i

/-- The pages a run of words falls into, each with its words and how many it takes (R416). -/
def State.pagesOf (s : State) (p off : Nat) (ws : List Word) : Nat → List (Nat × List Word × Nat)
  | 0 => []
  | fuel + 1 =>
    if ws.isEmpty ∨ pageCount ≤ p then []
    else
      let n := min ws.length (64 - off)
      (p, s.mergePage p off (ws.take n), n) :: s.pagesOf (p + 1) 0 (ws.drop n) fuel

/-! ## Parameter blocks (R420–R422) -/

/-- A parameter block's copy (R420): SEQ, FORMAT and data; none unless its mark and CRC are correct. DESIGN CHOICE: a LEN outside
1–58, which only PS_WRITE can leave there, counts as the nearest value in range. -/
def PageStore.copy (ps : PageStore) (p : Nat) : Option (Nat × Nat × List Word) :=
  let w := ps.page p
  let at' (i : Nat) : Word := w.getD i 0
  if ps.bad p then none
  else if at' 63 = validMark ∧ at' 62 = crc18 (w.take 62) then
    some (joinNat (at' 0) (at' 1), bitsOf (at' 2) 17 12, (w.drop 3).take (clampTo 1 58 (bitsOf (at' 2) 5 0)))
  else none

/-- The 64 words of a copy (R420). -/
def copyWords (seq format : Nat) (data : List Word) : List Word :=
  let d := data.take 58
  let head := [lowWord seq, highWord seq, word (format * 2 ^ 12 + d.length)] ++ d ++ List.replicate (59 - d.length) 0
  head ++ [crc18 head, validMark]

/-- The copy a read uses (R421): `inl` page for the copy in use. -/
def PageStore.used (ps : PageStore) (p : Nat) : Option Nat :=
  match ps.copy p, ps.copy (p + 1) with
  | some a, some b => if a.1 < b.1 then some (p + 1) else some p
  | some _, none => some p
  | none, some _ => some (p + 1)
  | none, none => none

/-- The events of a block's read (R421): the twin sequence once per block per Start, a copy not valid. -/
def State.noteCopies (s : State) (p : Nat) : State :=
  match s.pages.copy p, s.pages.copy (p + 1) with
  | some a, some b =>
    if a.1 = b.1 ∧ p ∉ s.pages.twins then
      ({ s with pages := { s.pages with twins := s.pages.twins ++ [p] } }).event 0o002_002 0 0 p 0
    else s
  | some _, none => s.event 0o002_003 0 0 (p + 1) 0
  | none, some _ => s.event 0o002_003 0 0 p 0
  | none, none => s

/-- A parameter block as it reads: FORMAT and data (R421). -/
def PageStore.block (ps : PageStore) (p : Nat) : Option (Nat × List Word) :=
  (ps.used p).bind fun u => (ps.copy u).map fun c => c.2

/-- The pages a block write writes, in order (R422). -/
def PageStore.blockPages (ps : PageStore) (p format : Nat) (data : List Word) : List (Nat × List Word × Nat) :=
  let n := min 58 data.length
  let new (seq : Nat) : List Word := copyWords (seq % 2 ^ 36) format data
  match ps.copy p, ps.copy (p + 1) with
  | some a, some b =>
    if a.1 = b.1 then [(p + 1, copyWords ((a.1 + 1) % 2 ^ 36) a.2.1 a.2.2, 0), (p, new (a.1 + 2), n)]
    else if a.1 < b.1 then [(p, new (b.1 + 1), n)] else [(p + 1, new (a.1 + 1), n)]
  | some a, none => [(p + 1, new (a.1 + 1), n)]
  | none, some b => [(p, new (b.1 + 1), n)]
  | none, none => [(p, new 1, n)]

/-! ## Spread counters (R423–R425) -/

/-- The 64 words of a counter cell (R423). -/
def cellWords (counter value serial : Nat) : List Word :=
  let head := [lowWord value, highWord value, lowWord serial, highWord serial, word (counter % 64)]
  head ++ List.replicate 57 0 ++ [crc18 head, validMark]

/-- A valid cell: VALUE and SERIAL (R423). -/
def PageStore.cell (ps : PageStore) (p : Nat) : Option (Nat × Nat) :=
  let w := ps.page p
  let at' (i : Nat) : Word := w.getD i 0
  if ps.bad p then none
  else if at' 63 = validMark ∧ at' 62 = crc18 (w.take 5) then some (joinNat (at' 0) (at' 1), joinNat (at' 2) (at' 3))
  else none

/-- The cell with the greater SERIAL. -/
def laterCell (a b : Option (Nat × Nat)) : Option (Nat × Nat) :=
  match a, b with
  | some x, some y => if x.2 < y.2 then some y else some x
  | some x, none => some x
  | none, y => y

/-- A counter's VALUE and SERIAL: its valid cell with the highest SERIAL (R423). -/
def PageStore.counterAt (ps : PageStore) (base n : Nat) : Nat × Nat :=
  ((List.range n).foldl (fun best i => laterCell best (ps.cell (base + i))) none).getD (0, 0)

/-- The definition of a counter in force (R423): base page and N. -/
def PageStore.counterDef (ps : PageStore) (c : Nat) : Option (Nat × Nat) := Tbl.get none ps.counters c

/-- The pages a request writes, decided when it takes the grant (R416, R422–R424). -/
def State.workPages (s : State) : PageWork → List (Nat × List Word × Nat)
  | .words p off ws => s.pagesOf p off ws (ws.length + 1)
  | .block p format ws => s.pages.blockPages p format ws
  | .increment c delta =>
    match s.pages.counterDef c with
    | none => []
    | some (base, n) =>
      let (v, q) := s.pages.counterAt base n
      if v = 2 ^ 36 - 1 then []
      else [(base + (q + 1) % n, cellWords c (min (2 ^ 36 - 1) (v + delta)) ((q + 1) % 2 ^ 36), 0)]
  | .define c base n =>
    ((List.range (n - 1)).map fun i => (base + 1 + i, List.replicate 64 0, 0)) ++ [(base, cellWords c 0 0, 0)]
  | .cell c v serial =>
    match s.pages.counterDef c with
    | none => []
    | some (base, n) => [(base + serial % n, cellWords c v serial, 0)]
  | .refresh p => [(p, s.pages.page p, 0)]

/-! ## The write grant (R417) -/

/-- Complete a forwarded write once both Keystones have written, or alone while the partner is not tracked
(R426). -/
def State.settleForwards (s : State) : State :=
  let ready (f : ForwardedWrite) : Bool := f.own.isSome && (f.confirmed || s.arch.lstate != 5)
  let hit := s.pages.forwards.filter ready
  hit.foldl (fun s f => s.complete f.ticket { len := f.own.map Prod.fst, detail := (f.own.map Prod.snd).getD 0 })
    { s with pages := { s.pages with forwards := s.pages.forwards.filter fun f => !ready f } }

/-- Complete a page-store request: a forwarded one waits for the partner (R426). -/
def State.completeJob (s : State) (j : PageJob) (rep : Reply) : State :=
  let rep := if j.rclm then { rep with detail := rep.detail + 2 ^ 11 } else rep
  match j.ticket with
  | none => if j.forwarded then { s with pages := { s.pages with confirmsSent := s.pages.confirmsSent + 1 } } else s
  | some k =>
    if s.pages.forwards.any (fun f => f.ticket == k) && rep.status == 0 then
      let fw := s.pages.forwards.map fun f => if f.ticket = k then { f with own := some (rep.len.getD 0, rep.detail) } else f
      ({ s with pages := { s.pages with forwards := fw } }).settleForwards
    else
      ({ s with pages := { s.pages with forwards := s.pages.forwards.filter fun f => f.ticket != k } }).complete k rep

/-- Whether a holder sends a write to its partner (R426). -/
def PageWork.toForward : PageWork → Bool
  | .increment _ _ => true
  | .block p _ _ => decide (firstAppPage ≤ p)
  | _ => false

/-- What a request changes beside pages when its last page is written (R423, R424). -/
def PageStore.settle (ps : PageStore) : PageWork → PageStore
  | .increment _ _ => { ps with intent := none }
  | .define c base n => { ps with counters := Tbl.set none ps.counters c (some (base, n)) }
  | _ => ps

/-- The requests in order of arrival take the grant: the first whose pages are to be written begins (R417). A
request with nothing to write completes at once: a counter already saturated, with DETAIL bit 0 (R424). -/
def State.beginJobs (s : State) : Nat → State
  | 0 => s
  | fuel + 1 =>
    if s.pages.busy then s
    else match s.pages.jobs with
      | [] => { s with pages := { s.pages with grant := noOwner } }
      | j :: rest =>
        if j.cut then
          (({ s with pages := { s.pages with jobs := rest, grant := noOwner } }).completeJob j
            { status := stAborted, len := some j.done }).beginJobs fuel
        else
          match s.workPages j.work with
          | [] =>
            let rep : Reply := match j.work with
              | .increment c _ => if (s.pages.counterDef c).isSome then { detail := 1 } else .refused 0
              | _ => .done
            (({ s with pages := { s.pages with jobs := rest, grant := noOwner } }).completeJob j rep).beginJobs fuel
          | pages =>
            let j1 := { j with begun := true, pages := pages, rclm := s.pages.grantRclm }
            let intent := match j.work with
              | .increment c _ => (s.pages.counterDef c).map fun d => (c, ((s.pages.counterAt d.1 d.2).2 + 1) % 2 ^ 36)
              | _ => s.pages.intent
            let fw := match j.ticket with
              | some k => if j.work.toForward && s.arch.lstate == 5 then s.pages.forwards ++ [⟨k, j.work, none, false⟩]
                          else s.pages.forwards
              | none => s.pages.forwards
            { s with pages := { s.pages with jobs := j1 :: rest, busy := true, grant := j.owner, grantRclm := false,
                                             intent := intent, forwards := fw } }

/-- Queue a page-store request (R417). -/
def State.queueJob (s : State) (j : PageJob) : State :=
  let s1 := { s with pages := { s.pages with jobs := s.pages.jobs ++ [j] } }
  s1.beginJobs (s1.pages.jobs.length + 1)

/-! ## Reads (R414, R416, R421, R431) -/

/-- The pages a read command reads. -/
def State.readPages (s : State) (d : Desc) : List Nat :=
  let p := min (pageCount - 1) d.a0.toNat
  if d.code.toNat = 0o200 then
    let last := (64 * p + min 63 d.a1.toNat + clampTo 1 4096 d.a2.toNat - 1) / 64
    (List.range (min (pageCount - 1) last - p + 1)).map fun i => p + i
  else if d.code.toNat = 0o202 then [2 * (p / 2), 2 * (p / 2) + 1]
  else match s.pages.counterDef (min 63 d.a0.toNat) with
    | some (base, n) => (List.range n).map fun i => base + i
    | none => []

/-- The firmware's own blocks, records and reserved pages (R415, R478), whose layout the spec does not give: all below 1,024 but the
retained copies. -/
def firmwarePage (p : Nat) : Bool := decide (p < 1024) && !(decide (128 ≤ p) && decide (p < 254))

/-- A word of the page store as it reads: a free value in the firmware's own pages (DESIGN CHOICE). -/
def State.storedWord (s : State) (i : Nat) : Word :=
  if firmwarePage (i / 64) then Config.freeWord (s.fresh + i) else Tbl.get 0 s.pages.words i

/-- Answer a read of the page store (R416, R421, R431). DESIGN CHOICE: a PS_READ one of whose pages is undefined returns no word of
the others. -/
def State.answerRead (s : State) (q : Req) (k : Ticket) : State :=
  let d := q.desc
  let p := min (pageCount - 1) d.a0.toNat
  if d.code.toNat = 0o200 then
    let off := min 63 d.a1.toNat
    let n := min (clampTo 1 4096 d.a2.toNat) (64 * pageCount - (64 * p + off))
    if (s.readPages d).any s.pages.bad then s.complete k { status := stUnreadable }
    else ({ s with fresh := s.fresh + 64 * pageCount }).complete k
      { data := (List.range n).map fun i => s.storedWord (64 * p + off + i) }
  else if d.code.toNat = 0o202 then
    let a := 2 * (p / 2)
    if firmwarePage a then
      let s1 := { s with fresh := s.fresh + 1 }
      match Config.firmwareBlock a s.fresh with
      | some data => s1.complete k { data := data.take 59 }
      | none => s1.complete k { status := stAbsent }
    else
      let s1 := s.noteCopies a
      match s1.pages.block a with
      | some (format, data) => s1.complete k { data := word (format * 2 ^ 12 + data.length) :: data }
      | none => s1.complete k { status := stAbsent }
  else
    match s.pages.counterDef (min 63 d.a0.toNat) with
    | some (base, n) =>
      let (v, q) := s.pages.counterAt base n
      s.complete k { data := [lowWord v, highWord v, lowWord q, highWord q] }
    | none => s.complete k (.refused 0)

/-- A read of a page under write completes after the write (R414). -/
def State.readOrWait (s : State) (q : Req) (k : Ticket) : State :=
  match s.pages.writing with
  | some p => if p ∈ s.readPages q.desc then { s with pages := { s.pages with readers := s.pages.readers ++ [(q, k)] } }
              else s.answerRead q k
  | none => s.answerRead q k

/-- PS_READ (R431). -/
def execPsRead (q : Req) (s : State) : Out := .next (runCommand 5 0o200 1 q s fun s q k _ => s.readOrWait q k)
/-- PB_READ (R421). -/
def execPbRead (q : Req) (s : State) : Out := .next (runCommand 5 0o202 1 q s fun s q k _ => s.readOrWait q k)
/-- SC_READ (R431). -/
def execScRead (q : Req) (s : State) : Out := .next (runCommand 5 0o206 1 q s fun s q k _ => s.readOrWait q k)

/-! ## Writes -/

/-- PS_WRITE (R416): a start page below 2,048 is clamped; a write past page 8,191 is truncated. -/
def execPsWrite (q : Req) (s : State) : Out :=
  .next (runCommand 5 0o201 2 q s fun s q k cred =>
    let p := clampTo firstAppPage (pageCount - 1) q.desc.a0.toNat
    let n := clampTo 1 4096 q.desc.a2.toNat
    (s.changedBy cred q).queueJob
      { owner := s.pageOwner 5 q.origin, ticket := some k
        work := .words p (min 63 q.desc.a1.toNat) ((List.range n).map fun i => q.data.getD i 0) })

/-- PB_WRITE (R422). -/
def execPbWrite (q : Req) (s : State) : Out :=
  .next (runCommand 5 0o203 2 q s fun s q k cred =>
    let p := clampTo firstAppPage (pageCount - 1) q.desc.a0.toNat
    let n := clampTo 1 58 q.desc.a2.toNat
    (s.changedBy cred q).queueJob
      { owner := s.pageOwner 5 q.origin, ticket := some k
        work := .block (2 * (p / 2)) (bitsOf q.desc.a1 17 12) ((List.range n).map fun i => q.data.getD i 0) })

/-- Two counters' pages meet (R423). -/
def rangesMeet (b n b' n' : Nat) : Bool := decide (b < b' + n') && decide (b' < b + n)

/-- The counters defined, and those whose definition is under way, with their pages (R423). -/
def PageStore.defined (ps : PageStore) : List (Nat × Nat × Nat) :=
  ps.counters.filterMap (fun e => e.2.map fun d => (e.1, d.1, d.2)) ++
    ps.jobs.filterMap fun j => match j.work with | .define c b n => some (c, b, n) | _ => none

/-- SC_DEFINE (R423): in Stop only, within the application area, overlapping no other counter. -/
def execScDefine (q : Req) (s : State) : Out :=
  .next (runCommand 5 0o204 2 q s fun s q k cred =>
    let c := min 63 q.desc.a0.toNat
    let base := max firstAppPage q.desc.a1.toNat
    let n := clampTo 2 256 q.desc.a2.toNat
    if s.md.mode ≠ .stop ∨ pageCount < base + n ∨
        s.pages.defined.any (fun e => e.1 != c && rangesMeet base n e.2.1 e.2.2) then s.complete k (.refused 0)
    else (s.changedBy cred q).queueJob { owner := s.pageOwner 5 q.origin, ticket := some k, work := .define c base n })

/-- SC_INC (R424): increments run one at a time in order of arrival. -/
def execScInc (q : Req) (s : State) : Out :=
  .next (runCommand 5 0o205 1 q s fun s q k cred =>
    let c := min 63 q.desc.a0.toNat
    if (s.pages.counterDef c).isNone then s.complete k (.refused 0)
    else (s.changedBy cred q).queueJob { owner := s.pageOwner 5 q.origin, ticket := some k, work := .increment c (max 1 q.desc.a1.toNat) })

/-- Answer the reads that waited, those that meet the next page under write waiting on. -/
def State.serveReaders (s : State) : State :=
  s.pages.readers.foldl (fun s x => s.readOrWait x.1 x.2) { s with pages := { s.pages with readers := [] } }

/-- A Keystone of an arch that neither has a tracked partner nor follows a holder (R426). -/
def State.aloneInArch (s : State) : Bool := s.inArch && (s.arch.lstate == 0 || s.arch.lstate == 4 || s.arch.lstate == 6)

/-- The page under write ends (R414, R416, R417). DEDUCED: a page passes 90,000 writes with its write 90,001 (R416). -/
def State.endPage (s : State) : State :=
  match s.pages.jobs with
  | [] => s
  | j :: rest =>
    match j.pages with
    | [] => s
    | (p, ws, n) :: more =>
      if !s.pages.busy then s
      else
        let count := Tbl.get 0 s.pages.writes p + 1
        let un := if s.aloneInArch && decide (firstAppPage ≤ p) && !(s.pages.unmirrored.contains p) then
          s.pages.unmirrored ++ [p] else s.pages.unmirrored
        let ps := { s.pages with
          words := Tbl.setMany 0 s.pages.words (64 * p) ws
          undefined := Tbl.set false s.pages.undefined p false
          writes := Tbl.set 0 s.pages.writes p count
          unmirrored := un }
        let s1 := { s with pages := ps }
        let s2 := if count = 90001 then s1.event 0o002_006 0 0 p 90 else s1
        let j1 := { j with pages := more, done := j.done + n }
        let s3 :=
          match more with
          | [] =>
            let s4 := { s2 with pages := { (s2.pages.settle j.work) with jobs := rest, busy := false, grant := noOwner } }
            s4.completeJob j1 { len := some j1.done }
          | _ :: _ =>
            if j.cut then
              ({ s2 with pages := { s2.pages with jobs := rest, busy := false, grant := noOwner } }).completeJob j1
                { status := stAborted, len := some j1.done }
            else { s2 with pages := { s2.pages with jobs := j1 :: rest } }
        (s3.beginJobs (rest.length + 1)).serveReaders

/-- PAGE_WRITE_COMPLETE (R414). -/
def execPageWriteComplete (s : State) : Out := .next s.endPage

/-! ## The arch's part (R426) -/

/-- The arch links carry traffic between the two Keystones: paired, with the arch engine's supply on (R235, R237). -/
def State.archOn (s : State) : Bool := s.inArch && s.arch.paired && s.domainOn 2

/-- FORWARDED_WRITE_RECEIPT (R426): a tracked partner applies the write under R422 and R424, in order. -/
def execForwardedWriteReceipt (w : Forwarded) (s : State) : Out :=
  if s.archOn ∧ (s.arch.lstate = 2 ∨ s.arch.lstate = 3) then
    .next (s.queueJob { owner := 4, ticket := none, forwarded := true,
                        work := match w with | .increment c d => .increment c d | .block p f ws => .block (2 * (p / 2)) f ws })
  else .next s

/-- FORWARDED_WRITE_CONFIRMATION (R426): the partner's write is complete, the oldest first. -/
def execForwardedWriteConfirmation (s : State) : Out :=
  if !s.archOn then .next s
  else match s.pages.forwards.find? fun f => !f.confirmed with
  | none => .next s
  | some f =>
    let fw := s.pages.forwards.map fun g => if g = f then { g with confirmed := true } else g
    .next ({ s with pages := { s.pages with forwards := fw } }).settleForwards

/-- MIRROR_PAGE_COPY (R426): the holder sends the next page written while the partner was not tracked; the tracked
standby writes it. -/
def execMirrorPageCopy (page : Nat) (ws : List Word) (s : State) : Out :=
  if !s.archOn then .next s
  else if s.arch.lstate = 5 then
    match s.pages.unmirrored with
    | p :: rest => .next { s with pages := { s.pages with unmirrored := rest, mirrorOut := some (p, s.pages.page p) } }
    | [] => .next s
  else if (s.arch.lstate = 2 ∨ s.arch.lstate = 3) ∧ firstAppPage ≤ page then
    .next (s.queueJob { owner := 4, ticket := none, work := .words page 0 (ws.take 64) })
  else .next s

/-! ## Scrub (R418) and the code store (R428) -/

/-- A scrub pass starts, unless one is in progress (R418). -/
def State.startScrub (s : State) : State :=
  if s.pages.scrub then s
  else { s with pages := { s.pages with scrub := true, scrubPage := 0, scrubRefreshed := 0, scrubBad := 0 } }

/-- SCRUB_PASS_START (R418): 30 days of powered time have passed. -/
def execScrubPassStart (s : State) : Out := .next s.startScrub

/-- At Start a pass begins when the clock shows more than 30 days since the last complete one (R418). -/
def State.scrubAtStart (s : State) : State := if s.pages.scrubAt + 30 * 86400 < s.clock.sec then s.startScrub else s

/-- A write of a page is queued or under way (R418). -/
def State.pageQueued (s : State) (p : Nat) : Bool :=
  s.pages.jobs.any fun j => (if j.begun then j.pages else s.workPages j.work).any fun x => x.1 == p

/-- SCRUB_READ (R418): one page at a tightened read margin; a weak page is refreshed unless a write is queued, an
uncorrectable one reported; after the last page the pass is complete. -/
def execScrubRead (weak uncorrectable : Bool) (s : State) : Out :=
  if !s.pages.scrub then .next s
  else
    let p := s.pages.scrubPage
    let bad := uncorrectable || s.pages.bad p
    let s1 :=
      if bad then ({ s with pages := { s.pages with scrubBad := s.pages.scrubBad + 1 } }).event 0o002_007 0 0 p 0
      else if weak && !s.pageQueued p then
        ({ s with pages := { s.pages with scrubRefreshed := s.pages.scrubRefreshed + 1 } }).queueJob
          { owner := 0, ticket := none, work := .refresh p }
      else s
    let ps := s1.pages
    if p + 1 < pageCount then .next { s1 with pages := { ps with scrubPage := p + 1 } }
    else
      .next (({ s1 with pages := { ps with scrub := false, scrubPage := 0, scrubAt := s1.clock.sec, ref := ps.scrubRefreshed } }).event
        0o002_004 0 0 ps.scrubRefreshed ps.scrubBad)

/-- APPLICATION_SLOT_APPEND (R428): a record of the change enters the active slot; when it would fill the slot, the
complete program is written into the other slot, which becomes active. -/
def execApplicationSlotAppend (fills : Bool) (s : State) : Out :=
  if !s.pages.appendDue then .next s
  else
    let ps := s.pages
    let now := s.work.program_
    if fills then
      .next { s with pages := { ps with appendDue := false, appended := 0, appSlot := !ps.appSlot, otherImage := some ps.image,
                                        image := now } }
    else .next { s with pages := { ps with appendDue := false, appended := ps.appended + 1, image := now } }

end Sys2Proof.Machine
end

