-- ==== Sys2Proof/Machine/Links.lean ====
section
/-!
DEFINITION. Station links and remote stations (R200–R234): the O-form and its words, the station view,
presence, substitution and admission, link timing, acyclic services, and the Lintel mode.
-/

namespace Sys2Proof.Machine

/-! ## The frame on the wire (R203, R204) -/

/-- Ceiling of n / 4: word groups (R204). -/
def groups (n : Nat) : Nat := (n + 3) / 4

/-- Pad words with zeros to whole groups (R204). -/
def padGroup (ws : List Word) : List Word := ws ++ List.replicate (4 * groups ws.length - ws.length) 0

/-- Octets of a number, most significant first. -/
def octetsMsf (n v : Nat) : List Nat := (List.range n).map fun i => v / 256 ^ (n - 1 - i) % 256

/-- The nine octets of a word group w0 × 2⁵⁴ + w1 × 2³⁶ + w2 × 2¹⁸ + w3, most significant first (R204). -/
def groupOctets (w0 w1 w2 w3 : Word) : List Nat :=
  octetsMsf 9 (w0.toNat * 2 ^ 54 + w1.toNat * 2 ^ 36 + w2.toNat * 2 ^ 18 + w3.toNat)

/-- The octets of whole word groups. -/
def payloadOctets : List Word → List Nat
  | w0 :: w1 :: w2 :: w3 :: rest => groupOctets w0 w1 w2 w3 ++ payloadOctets rest
  | _ => []

/-- A frame from its destination address to its padding (R203): broadcast, the port's address, the EtherType, the payload, and
zeros to 46 octets. -/
def etherFrame (mac etype : Nat) (ws : List Word) : List Nat :=
  let p := payloadOctets (padGroup ws)
  List.replicate 6 0xFF ++ octetsMsf 6 mac ++ octetsMsf 2 etype ++ p ++ List.replicate (46 - p.length) 0

/-- SL_ETYPE in effect (R231). -/
def State.slEtype (s : State) : Nat := max 0o003_000 (bitsOf (s.setupTickOr 0o000_500 0o104_265) 15 0)

/-- The frames that carry payloads from station link k's port, P(07 + k) (R200, R203). -/
def State.wireOf (s : State) (k : Nat) (segments : List (List Word)) : List (List Nat) :=
  segments.map fun ws => etherFrame (Config.portMac (7 + k)).toNat s.slEtype ws

/-! ## The forms (R205–R209) -/

/-- The eight header words of one segment (R206). -/
def FormHeader.words (h : FormHeader) (seg : Nat) (last : Bool) (blocks : Nat) : List Word :=
  [word (2 ^ 15 + h.kind * 2 ^ 13 + flagNat h.atEnd * 2 ^ 12 + flagNat h.safe * 2 ^ 11 + h.link * 2 ^ 7 + seg * 2 ^ 5 +
     flagNat last * 2 ^ 4 + flagNat h.survey * 2 ^ 3 + flagNat h.ring * 2 ^ 2),
   lowWord h.tick, highWord h.tick, lowWord h.epoch, highWord h.epoch,
   word (h.latch * 2 ^ 10 + blocks * 2 ^ 5 + h.turner), word h.period, word (h.tmo * 2 ^ 10 + h.period / 2 ^ 18 % 4)]

/-- The words of an O-block (R207). -/
def oBlockWords (b : OBlock) : List Word :=
  [word (b.pos * 2 ^ 14 + flagNat b.en * 2 ^ 13 + b.words.length), word b.offset, word b.iwords, 0] ++ padGroup b.words

/-- Groups a segment holds beside its header (R205). -/
def segmentGroups : Nat := 164

/-- Pack blocks of the given sizes, in groups, into segments in order (R205). -/
def packInto {α : Type} (size : α → Nat) : List α → List α → Nat → List (List α)
  | [], cur, _ => if cur.isEmpty then [] else [cur]
  | b :: bs, cur, used =>
    if used + size b ≤ segmentGroups ∨ cur.isEmpty then packInto size bs (cur ++ [b]) (used + size b)
    else cur :: packInto size bs [b] (size b)

/-- The segments of a form, one to four. DESIGN CHOICE: blocks that would need a fifth do not travel; a link set up so is
refused Run by R217, and only a safe marker or a survey can meet it. -/
def segments {α : Type} (size : α → Nat) (bs : List α) : List (List α) := (packInto size bs [] 0).take 4

/-- The payload of each segment of a form whose blocks have the given sizes and words (R205, R206). -/
def formWords {α : Type} (h : FormHeader) (size : α → Nat) (block : α → List Word) (bs : List α) : List (List Word) :=
  let segs := segments size bs
  (List.range segs.length).map fun i =>
    let seg := segs.getD i []
    FormHeader.words h i (i + 1 == segs.length) seg.length ++ seg.flatMap block

/-- The payload of each segment of an O-form (R205–R207). -/
def oFormWords (h : FormHeader) (bs : List OBlock) : List (List Word) :=
  formWords h (fun b : OBlock => 1 + groups b.words.length) oBlockWords bs

/-- The header group and the data words of an I-block as the turning point emits it (R209): VALID, STALE, NEW, OSAFE and data 0,
with IWORDS of the O-block. DESIGN CHOICE: DELTA and SEPOCH of a block that no station has filled are 0. -/
def emptyIBlock (b : OBlock) : List Word :=
  [word (b.pos * 2 ^ 14 + b.iwords), 0, 0, 0] ++ List.replicate (4 * groups b.iwords) 0

/-- The payload of each segment of the I-form a Keystone port turns a copy into: KIND 1, TURNER 31 (R206, R209). -/
def iFormWords (h : FormHeader) (bs : List OBlock) : List (List Word) :=
  formWords { h with kind := 1, turner := 31 } (fun b : OBlock => 1 + groups b.iwords) emptyIBlock bs

/-- Wire length of a form in octets (R217). -/
def formOctets (sizes : List Nat) : Nat :=
  ((packInto id sizes [] 0).map fun seg => 38 + 9 * (2 + seg.foldl (· + ·) 0)).foldl (· + ·) 0

/-! ## Ports (R200, R211) -/

/-- A port may bring its link up (R211): PD7 is on, which in Start it is from step 7, and the mode is none of Update and
Service. -/
def State.portsOn (s : State) : Bool :=
  s.domainOn 7 && (match s.md.mode with | .update | .service | .off | .backup => false | _ => true)

/-- PORT_LINK_UP (R200, R211): only 100 Mbit/s full duplex is brought up. -/
def execPortLinkUp (k : Nat) (full100 : Bool) (s : State) : Out :=
  if 15 < k then .next s else .next (s.setLink k { s.link k with up := full100 && s.portsOn })

/-- A link runs tick frames: native, up, with a station (R201, R231). -/
def State.linkNative (s : State) (k : Nat) : Bool :=
  s.linkMode k == 2 && (s.link k).up && !(s.positions k).isEmpty

/-! ## The O-form at T0 (R206, R207, R210) -/

/-- Header of this Keystone's own O-form on a link (R206). -/
def State.header (s : State) (k : Nat) (safe : Bool) (tick epoch : Nat) : FormHeader :=
  { kind := 0, atEnd := s.linkRing k && s.linkEnd k, safe := safe, link := k, survey := false, ring := s.linkRing k,
    tick := tick, epoch := epoch, latch := s.tick.latch, turner := 0, period := s.tick.period, tmo := s.linkTmo k }

/-- The O-block of a position (R207, R221, R224, R226): EN for an admitted station, all words 0 in a safe marker. -/
def State.oBlock (s : State) (k pos : Nat) (safe : Bool) : OBlock :=
  let i := 16 * k + pos
  let st := s.station i
  { pos := pos, en := !safe && st.present, offset := st.offset, iwords := s.iwords i,
    words := (List.range (s.owords i)).map fun j =>
      if safe then 0 else Tbl.get 0 s.work.mortar.emitted (s.obase i + j) }

/-- Emit this Keystone's own copy on one link at T0, and relay its header and O-blocks to the partner (R210). -/
def State.emitLink (s : State) (safe : Bool) (k : Nat) : State :=
  if !s.linkNative k then s
  else
    let bs := (s.positions k).map fun p => s.oBlock k p safe
    let f := oFormWords (s.header k safe s.tickNumber s.arch.epoch) bs
    let relay : Option Relay := if s.archOn then some ⟨k, s.tickNumber, s.arch.epoch, safe, bs⟩ else none
    let s1 := s.setLink k { s.link k with frame := f, wire := s.wireOf k f, relayOut := relay }
    bs.foldl (fun s b => let i := 16 * k + b.pos; s.setStation i { s.station i with enSent := b.en }) s1

/-- No frame leaves on a link: its stations have received no EN in this tick. -/
def State.silentLink (s : State) (k : Nat) : State :=
  (s.positions k).foldl (fun s p => let i := 16 * k + p; s.setStation i { s.station i with enSent := false }) s

/-- At T0 the lease holder emits on every link; any other Keystone emits no frame of its own (R210, R241). -/
def State.emitFrames (s : State) (safe : Bool) : State :=
  (List.range 16).foldl (fun s k => if s.holds then s.emitLink safe k else s.silentLink k) s

/-- The links forget what the last tick brought (R210–R213). -/
def State.clearLinks (s : State) : State :=
  { s with links := Tbl.mapEntries {} (fun _ x => { x with forms := [], turned := false, relayIn := none, relayOut := none
                                                           forwarded := [] }) s.links }

/-! ## The survey at step 7 (R216) -/

/-- The survey frames of a link: O-forms with SURVEY 1, SAFE 1, EN 0 and OFFSET unknown in every block (R216). -/
def State.surveyForm (s : State) (k : Nat) : List (List Word) :=
  oFormWords { s.header k true s.tickNumber s.arch.epoch with survey := true }
    ((s.positions k).map fun p => { s.oBlock k p true with offset := offsetUnknown })

/-- OFFSET from a copy's timestamps (R214). -/
def offsetOf (te tr delta : Nat) : Nat := min offsetUnknown (te + (tr - te - delta) / 2)

/-- One answer (R214, R216, R226): the station is present at once, with its OFFSET, its DELTA and its SEPOCH. -/
def State.surveyAnswer (s : State) (a : SurveyAnswer) : State :=
  if 15 < a.link ∨ !s.linkNative a.link ∨ !(s.positions a.link).contains a.pos then s
  else
    let i := 16 * a.link + a.pos
    let s1 := s.setStation i { s.station i with
      present := true, delta := a.delta, offset := offsetOf a.te a.tr a.delta }
    { s1 with arch := { s1.arch with maxSepoch := max s1.arch.maxSepoch a.sepoch } }

/-- The links come up at step 7, and each runs its survey exchanges; a Keystone whose partner holds the lease emits none of its
own (R216, R241). -/
def State.survey (s : State) (ports : List Nat) (answers : List SurveyAnswer) : State :=
  let s1 := ports.foldl (fun (s : State) k => if 15 < k then s else s.setLink k { s.link k with up := s.portsOn }) s
  if s1.partnerHolds then s1
  else
    let s2 := (List.range 16).foldl (fun (s : State) k =>
      if s.linkNative k then
        let f := s.surveyForm k
        s.setLink k { s.link k with frame := f, wire := s.wireOf k f }
      else s) s1
    answers.foldl (fun (s : State) a => s.surveyAnswer a) s2

/-! ## Relays and turning (R210, R211) -/

/-- What a relay tells of the other end: its OFFSET of each station (R210, R230). -/
def State.takeRelayed (s : State) (r : Relay) : State :=
  r.blocks.foldl (fun (s : State) b => let i := 16 * r.link + b.pos; s.setStation i { s.station i with offsetFar := b.offset }) s

/-- RELAYED_COPY_EMISSION (R210): the standby's port emits the relayed copy with its own END and OFFSET values; an
incomplete relay is not sent and sets RELMISS. -/
def execRelayedCopyEmission (k : Nat) (s : State) : Out :=
  if 15 < k ∨ s.md.mode ≠ .track ∨ !s.linkNative k then .next s
  else
    let x := s.link k
    match x.relayIn with
    | some r =>
      let f := oFormWords (s.header k r.safe r.tick r.epoch) (r.blocks.map fun b => { b with offset := (s.station (16 * k + b.pos)).offset })
      .next (s.setLink k { x with frame := f, wire := s.wireOf k f, relayIn := none })
    | none => .next { s with arch := { s.arch with relmiss := true, relayMissed := true } }

/-- RELAY_RECEIPT (R210): the holder's header and O-blocks for one link. -/
def execRelayReceipt (r : Relay) (s : State) : Out :=
  if 15 < r.link ∨ s.md.mode ≠ .track ∨ !s.archOn then .next s
  else
    let s1 := (s.setLink r.link { s.link r.link with relayIn := some r }).takeRelayed r
    .next { s1 with arch := { s1.arch with peerEpoch := max s1.arch.peerEpoch r.epoch } }

/-- PORT_TURN (R211): a ring's port turns the other end's copy while PD7 is on, its tick runs and its T0 is held to the sending
end's T0; it emits the I-form. A port whose tick does not follow keeps its link down. A frame with another EtherType is
discarded (R203). -/
def execPortTurn (k : Nat) (p : PortCopy) (s : State) : Out :=
  if 15 < k ∨ !s.linkRing k ∨ p.copy.etype ≠ s.slEtype ∨ !(s.link k).up then .next s
  else
    let x := s.link k
    if !p.synced ∨ !s.portsOn ∨ !s.md.mode.ticks then .next (s.setLink k { x with up := false })
    else
      let f := iFormWords p.copy.header p.copy.blocks
      .next (s.setLink k { x with turned := true, turnFrame := f, wire := s.wireOf k f })

/-! ## I-forms (R208, R212–R214) -/

/-- b0 of an I-block (R208). -/
def iBlockB0 (b : IBlock) : Word :=
  word (b.pos * 2 ^ 14 + flagNat b.valid * 2 ^ 13 + flagNat b.stale * 2 ^ 12 + flagNat b.new * 2 ^ 11 +
    flagNat b.osafe * 2 ^ 10 + b.words.length)

/-- A block is accepted: VALID, and SEPOCH not above the Keystone's epoch (R213); the FCS is the segment's. -/
def IBlockAccepted (epoch : Nat) (b : IBlock) : Bool := b.valid && decide (b.sepoch ≤ epoch)



/-- What one block of a good segment tells of its station (R214, R230, R240). -/
def State.takeBlock (s : State) (k : Nat) (f : IForm) (b : IBlock) : State :=
  let i := 16 * k + b.pos
  let st := s.station i
  let st1 := { st with b0 := iBlockB0 b }
  let st2 := if IBlockAccepted s.viewEpoch b then
      { st1 with delta := b.delta, offset := if f.forwarded then st1.offset else offsetOf f.te f.tr b.delta }
    else st1
  let s1 := s.setStation i st2
  let s2 := { s1 with arch := { s1.arch with maxSepoch := max s1.arch.maxSepoch b.sepoch } }
  if s.viewEpoch < b.sepoch then
    let s3 := s2.setLink k { s2.link k with stale := true }
    if s3.md.mode = .run ∨ s3.md.mode = .hold then { s3 with md := { s3.md with staleDue := true } } else s3
  else s2

/-- I_FORM_RECEIPT (R203, R212, R213): a frame with another EtherType is discarded; LATE and FCSERR; the segment goes on to the
partner of an arch, counts for the view built at T_in, and tells of its stations. -/
def execIFormReceipt (k : Nat) (f : IForm) (s : State) : Out :=
  if 15 < k ∨ !s.md.mode.ticks ∨ f.etype ≠ s.slEtype ∨ (if f.forwarded then !s.archOn else !s.linkNative k) then .next s
  else
    let x := s.link k
    let s1 := s.setLink k { x with
      late := x.late || f.late, fcsErr := x.fcsErr || !f.fcsOk
      forms := if s.arch.tinPassed then x.forms else x.forms ++ [f]
      forwarded := if s.archOn && !f.forwarded then x.forwarded ++ [f] else x.forwarded }
    if f.fcsOk then .next (f.blocks.foldl (fun s b => s.takeBlock k f b) s1)
    else
      .next (f.blocks.foldl (fun s b =>
        let i := 16 * k + b.pos
        let st := s.station i
        s.setStation i { st with badFcs := (st.badFcs + 1) % 2 ^ 36 }) s1)

/-- The accepted block of a position among the segments held at T_in (R213). -/
def Link.accepted (x : Link) (epoch pos : Nat) : Option IBlock :=
  ((x.forms.filter fun f => f.fcsOk).flatMap fun f => f.blocks).find? fun b =>
    b.pos == pos && IBlockAccepted epoch b

/-! ## Link timing (R217) -/

/-- The configured position an own copy reaches last: the turning point of a line, the one before the far port of a ring. -/
def State.lastPosition (s : State) (k : Nat) : Nat :=
  let ps := s.positions k
  (if s.linkRing k && s.linkEnd k then ps.head? else ps.getLast?).getD 0

/-- The path delay d of a link in units of 2.5 ns: measured from the station before the turning point, else the
planning value of 1.1 µs for each cable. -/
def State.pathDelay (s : State) (k : Nat) : Int :=
  let ownE : Nat := if s.inArch && !s.holds then 1200 else 400
  let count := s.linkCount k
  let far := s.lastPosition k
  let off := (s.station (16 * k + far)).offset
  if s.linkRing k then
    if off = offsetUnknown then (440 * (count + 1) : Nat) else (off : Int) - ownE + 440
  else if off = offsetUnknown then (440 * count : Nat) else (off : Int) - ownE

/-- Outbound and return slack of a link in units of 2.5 ns, the smallest over its copies (R217). -/
def State.linkSlack (s : State) (k : Nat) : Int × Int :=
  let ps := s.positions k
  let fo := formOctets (ps.map fun p => 1 + groups (s.owords (16 * k + p)))
  let fi := formOctets (ps.map fun p => 1 + groups (s.iwords (16 * k + p)))
  let e : Int := if s.inArch then 1200 else 400
  let x : Int := if s.inArch then 800 else 0
  let d := s.pathDelay k
  let l : Int := (400 * s.tick.latch : Nat)
  let tin : Int := (400 * s.tick.inwin : Nat)
  (l - (e + d + (32 * fo : Nat) + 400), (tin - 800) - (l + 400 + d + (32 * fi : Nat) + 400 + x))

/-- A slack in whole µs rounded down, saturating at −256 and 255 (R231). -/
def marginOf (slack : Int) : Int := max (-256) (min 255 (slack / 400))

/-- Every configured native link meets R217 (R47). -/
def State.linksFit (s : State) : Bool :=
  (List.range 16).all fun k =>
    s.linkMode k != 2 || (s.positions k).isEmpty || (decide (0 ≤ (s.linkSlack k).1) && decide (0 ≤ (s.linkSlack k).2))

/-- The topology rule of R201 and the Lintel rule of R232. -/
def State.linksAllowed (s : State) : Bool :=
  (List.range 16).all fun k =>
    match s.linkMode k with
    | 2 => s.linkRing k == s.inArch
    | 1 => !s.inArch && !s.linkRing k
    | _ => true

/-! ## Presence, substitution, admission (R224–R227) -/

/-- What becomes of a station's input words at T_in. -/
inductive WordsAction where
  | take
  | keep
  | substitute
deriving DecidableEq, Repr

/-- The outcome for one station at T_in: its bits, the error causes raised, a dropout, and its words. -/
structure StationStep where
  present : Bool
  awaiting : Bool
  dropped : Bool
  returned : Bool
  action : WordsAction

/-- One station at T_in, on the Keystone that decides (R224, R226). `atOnce` holds in the modes that admit at once. -/
def stationStep (atOnce : Bool) (st : Station) (block : Option IBlock) : StationStep :=
  match block with
  | none =>
    if st.present then ⟨false, false, true, false, .keep⟩
    else ⟨false, false, st.awaiting, false, .substitute⟩
  | some b =>
    if st.present then
      if b.new && st.enSent then ⟨atOnce, !atOnce, true, !atOnce, .keep⟩ else ⟨true, false, false, false, .take⟩
    else if atOnce then ⟨true, false, false, false, .take⟩
    else if st.awaiting then ⟨false, true, false, false, .substitute⟩
    else ⟨false, true, false, true, .substitute⟩

/-- Write one word of the input image being built, before forces (R46). -/
def State.writeField (s : State) (i : Nat) (w : Word) : State :=
  let m := s.work.mortar
  (s.setMortar { m with inputField := Tbl.set 0 m.inputField i w }).dirty (mortarLine 0 i)

/-- Write consecutive words of the image being built. -/
def State.writeFields (s : State) (i : Nat) : List Word → State
  | [] => s
  | w :: ws => (s.writeField i w).writeFields (i + 1) ws

/-- The substitute words of a station; none when its words are held (R225). -/
def State.substitutes (s : State) (i : Nat) : Option (List Word) :=
  match s.stationSub i with
  | 0 => none
  | 1 => some (List.replicate (s.iwords i) 0)
  | _ => some (Tbl.getMany 0 s.pages.words (64 * (1024 + 4 * i)) (s.iwords i))

/-- The block of a Lintel rack: its modules' words from complete replies, absent after three missed polls (R233). -/
def State.rackBlock (s : State) (k pos : Nat) : Option IBlock :=
  let st := s.station (16 * k + pos)
  if (s.link k).up ∧ st.replied ∧ st.missed < 3 then
    some ⟨pos, true, false, false, false, 0, 0, Tbl.getMany 0 (s.link k).modules (256 * pos) (s.iwords (16 * k + pos))⟩
  else none

/-- The accepted block of a station at T_in. -/
def State.heldBlock (s : State) (k pos : Nat) : Option IBlock :=
  match s.linkMode k with
  | 2 => (s.link k).accepted s.viewEpoch pos
  | 1 => s.rackBlock k pos
  | _ => none

/-- Put a station's words into the image as its step says. -/
def State.stationWords (s : State) (i : Nat) (a : WordsAction) (b : Option IBlock) : State :=
  match a with
  | .take => s.writeFields (s.ibase i) ((List.range (s.iwords i)).map fun j => (b.map fun x => x.words.getD j 0).getD 0)
  | .keep => s
  | .substitute => match s.substitutes i with
    | some ws => s.writeFields (s.ibase i) ws
    | none => s

/-- A station's step applied: its bits, its dropout count and the error causes 0 and 1 (R56, R224, R226). -/
def State.applyStation (s : State) (i : Nat) (x : StationStep) (b : Option IBlock) : State :=
  let st := s.station i
  let s1 := s.setStation i { st with present := x.present, awaiting := x.awaiting,
                                     dropouts := if x.dropped then (st.dropouts + 1) % 2 ^ 36 else st.dropouts,
                                     subNow := decide (x.action = .substitute), subPrev := st.subNow }
  let s2 := if x.dropped then s1.raise 0 else s1
  (if x.returned then s2.raise 1 else s2).stationWords i x.action b

/-- The modes that admit a returned station at once (R226). -/
def Mode.admitsAtOnce : Mode → Bool
  | .start | .stop | .safe => true
  | _ => false

/-- Positions that were admitted or awaiting and are configured no more: no block of theirs is in the view (R224). -/
def State.goneStations (s : State) : List Nat :=
  (Tbl.keys s.stations).filter fun i =>
    let st := s.station i
    (st.present || st.awaiting) && !s.allStations.contains (i / 16, i % 16)

/-- Station inputs and substitute values of image n (R46, R213, R224–R226). -/
def State.closeStations (s : State) : State :=
  let s1 := s.goneStations.foldl (fun s i => s.applyStation i (stationStep false (s.station i) none) none) s
  s1.allStations.foldl (fun s kp =>
    let i := 16 * kp.1 + kp.2
    let b := s.heldBlock kp.1 kp.2
    s.applyStation i (stationStep s.md.mode.admitsAtOnce (s.station i) b) b) s1

/-- The station half of image n on a standby, which follows the primary's bits (R213, R226). -/
def State.followStations (s : State) (present awaiting : Nat → Bool) : State :=
  s.allStations.foldl (fun s kp =>
    let i := 16 * kp.1 + kp.2
    let st := s.station i
    let p := present i
    let a : WordsAction := if p then .take else if st.present then .keep else .substitute
    s.applyStation i ⟨p, awaiting i, st.present && !p, false, a⟩ (s.heldBlock kp.1 kp.2)) s

/-- A station the primary holds present is missing from the standby's own view (R250). -/
def State.viewLacks (s : State) (present : Nat → Bool) : Bool :=
  s.allStations.any fun kp => present (16 * kp.1 + kp.2) && (s.heldBlock kp.1 kp.2).isNone

/-- The turning point of an unbroken copy: the far Keystone port of a ring, the last configured station of a line (R211). -/
def State.turnsAt (s : State) (k : Nat) : Nat := if s.linkRing k then 31 else s.lastPosition k

/-- The status registers of one link after T_in, up or down (R200, R217, R231). -/
def State.closeLink (s : State) (k : Nat) : State :=
  let x := s.link k
  let native := s.linkMode k == 2
  let own := (x.forms.filter fun f => !f.forwarded).head?
  let (o, i) := s.linkSlack k
  s.setLink k { x with
    turner := if native then (own.map fun f => f.turner).getD 30 else 0
    broken := x.forms.any fun f => f.turner != s.turnsAt k
    relay := x.turned || x.forms.any (fun f => f.forwarded)
    cross := x.forms.any fun f => f.forwarded
    presentCount := if s.linkMode k = 0 then 0 else ((s.positions k).filter fun p => (s.station (16 * k + p)).present).length
    outm := if native then marginOf o else 0
    inm := if native then marginOf i else 0 }

/-- The status registers of every configured link, and of one that was configured. -/
def State.closeLinks (s : State) : State :=
  (List.range 16).foldl (fun s k => if s.linkMode k ≠ 0 ∨ (s.link k).turner ≠ 0 ∨ (s.link k).presentCount ≠ 0 then s.closeLink k else s) s

/-- Bits of the stations in one 18-bit word: station i at bit i mod 18 of word i div 18 (R70). -/
def State.stationBits (s : State) (bit : Station → Bool) (w : Nat) : Word :=
  word ((List.range 18).foldl (fun n b => n + (if 18 * w + b < 256 ∧ bit (s.station (18 * w + b)) then 2 ^ b else 0)) 0)

/-- An input word that has changed into or out of substitute values between the last two images (R78, R225, R234). -/
def State.substChanged (s : State) (i : Nat) : Bool :=
  s.allStations.any fun kp =>
    let n := 16 * kp.1 + kp.2
    decide (s.ibase n ≤ i) && decide (i < s.ibase n + s.iwords n) && ((s.station n).subNow != (s.station n).subPrev)

/-- A station's bit in a block of 15 words (R70). -/
def stationBitOf (ws : Nat → Word) (i : Nat) : Bool := bitOf (ws (i / 18)) (i % 18)

/-- At P the acknowledgement bits admit awaiting stations (R227). -/
def State.admitStations (s : State) : State :=
  s.allStations.foldl (fun s kp =>
    let i := 16 * kp.1 + kp.2
    let st := s.station i
    if st.awaiting && stationBitOf (fun w => s.outWord (0o077_000 + w)) i then
      s.setStation i { st with present := true, awaiting := false }
    else s) s

/-! ## Acyclic services (R228–R230) -/

/-- Words a service's request carries: the values of PWRITE and SAFESET. DESIGN CHOICE: a read's LEN is what its reply may carry,
and its request carries none. -/
def requestWords (service len : Nat) : Nat := match service with | 3 | 4 => len | _ => 0

/-- Words a service's reply carries, as the fit of R229 counts them. -/
def replyWords (service len : Nat) : Nat := match service with | 1 => 8 | 2 | 5 => len | _ => 0

/-- Wire time of an acyclic frame with `n` data words, in units of 2.5 ns (R217, R228). -/
def acyclicTime (n : Nat) : Nat := 32 * (38 + 9 * (2 + groups n))

/-- A request that leaves at a time from T0, in 2.5 ns, ends its round trip by P − 10 µs (R229). -/
def State.acyclicFits (s : State) (k service len at_ : Nat) : Bool :=
  let trip : Int := 2 * s.pathDelay k +
    ((acyclicTime (requestWords service len) + acyclicTime (replyWords service len) + 400 * 50 : Nat) : Int)
  decide ((at_ : Int) + trip ≤ ((400 * (s.tick.period - 10) : Nat) : Int))

/-- The earliest a request leaves: T_in + 10 µs (R229). -/
def State.acyclicFrom (s : State) : Nat := 400 * (s.tick.inwin + 10)

/-- The payload of an acyclic request (R206, R228): KIND 2, SEG 0, LAST 1, TICK and EPOCH of the current tick. -/
def State.requestFrame (s : State) (k : Nat) (c : AcyclicCall) : List Word :=
  [word (2 ^ 15 + 2 * 2 ^ 13 + flagNat (s.linkRing k && s.linkEnd k) * 2 ^ 12 + k * 2 ^ 7 + 2 ^ 4 + flagNat (s.linkRing k) * 2 ^ 2),
   lowWord s.tickNumber, highWord s.tickNumber, lowWord s.viewEpoch, highWord s.viewEpoch,
   word (c.pos * 2 ^ 14 + c.words.length % 128), word (c.service % 64 * 2 ^ 12 + c.tag % 4096), word (c.param * 2 ^ 9)] ++
    padGroup c.words

/-- The request a command has made, as it travels. -/
def acyclicCall (r : Acyclic) : AcyclicCall :=
  ⟨r.pos, r.service, r.tag, r.param, r.words.take (requestWords r.service r.len)⟩

/-- A port sends a request. -/
def State.sendAcyclic (s : State) (k : Nat) (c : AcyclicCall) : State :=
  let f := s.requestFrame k c
  s.setLink k { s.link k with acyclicFrame := f, wire := s.wireOf k [f] }

/-- A reply to a request (R228): KIND 3 of its link and position, with its TAG. -/
def replyMatches (k : Nat) (r : Acyclic) (f : AcyclicFrame) : Bool :=
  let h (i : Nat) : Word := f.words.getD i 0
  decide (bitsOf (h 0) 17 13 = 7) && decide (bitsOf (h 0) 10 7 = k) && decide (bitsOf (h 5) 17 14 = r.pos) &&
    decide (bitsOf (h 6) 11 0 = r.tag)

/-- The right a service needs: installer for PWRITE and SAFESET, else operator (R230). -/
def serviceRight (service : Nat) : Nat := if service = 3 ∨ service = 4 then 2 else 1

/-- STATION_SERVICE (R229, R230): only a lease holder sends requests; one whose round trip fits in no tick is
refused. -/
def execStationService (q : Req) (s : State) : Out :=
  let service := bitsOf q.desc.a1 5 0
  .next (runCommand 1 0o060 (serviceRight service) q s fun s q k cred =>
    let i := min 255 q.desc.a0.toNat
    let link := i / 16
    let len := min 64 q.desc.a3.toNat
    if !s.holds ∨ s.linkMode link ≠ 2 ∨ !s.md.mode.ticks ∨ !s.acyclicFits link service len s.acyclicFrom then s.complete k (.refused 0)
    else
      let x := s.link link
      let r : Acyclic := ⟨k, i % 16, service, min 511 q.desc.a2.toNat, len,
        (List.range len).map fun j => q.data.getD j 0, x.tag, 0, false⟩
      let s1 := s.setLink link { x with waiting := x.waiting ++ [r], tag := (x.tag + 1) % 4096 }
      if serviceRight service = 2 then s1.changedBy cred q else s1)

/-- The request that goes out next on a link: the outstanding one again, or the first that waits (R229). -/
def Link.nextRequest (x : Link) : Option (Acyclic × List Acyclic) :=
  match x.outstanding, x.waiting with
  | some r, rest => if r.out then none else some ({ r with out := true, tries := r.tries + 1 }, rest)
  | none, r :: rest => some ({ r with out := true, tries := 1 }, rest)
  | none, [] => none

/-- ACYCLIC_REQUEST (R229): at most one outstanding per link, not before T_in + 10 µs, and only when its round trip ends by
P − 10 µs. In an arch a retry goes to the partner, whose end sends it; the partner sends what its primary handed to it. -/
def execAcyclicRequest (t : AcyclicTurn) (s : State) : Out :=
  let k := t.link
  if 15 < k ∨ !s.md.mode.ticks ∨ t.time < s.acyclicFrom then .next s
  else if s.holds then
    let x := s.link k
    match x.nextRequest with
    | none => .next s
    | some (r, rest) =>
      if !s.acyclicFits k r.service r.len t.time then .next s
      else
        let s1 := s.setLink k { x with outstanding := some r, waiting := rest }
        if 1 < r.tries ∧ s.archOn then .next (s1.setLink k { s1.link k with callOut := some (acyclicCall r) })
        else .next (s1.sendAcyclic k (acyclicCall r))
  else match t.relayed with
    | some c => if s.archOn ∧ s.linkNative k then .next (s.sendAcyclic k c) else .next s
    | none => .next s

/-- ACYCLIC_REPLY (R203, R228, R229): to the request outstanding, STATUS 0 completes DONE with the data; another STATUS completes
REFUSED and names it. On the partner's end the reply goes on to the primary. -/
def execAcyclicReply (k : Nat) (fcsOk : Bool) (f : AcyclicFrame) (s : State) : Out :=
  if 15 < k ∨ f.etype ≠ s.slEtype ∨ !fcsOk then .next s
  else
    let x := s.link k
    if !s.holds then (if s.archOn then .next (s.setLink k { x with replyOut := some f }) else .next s)
    else match x.outstanding with
      | some r =>
        if !r.out ∨ !replyMatches k r f then .next s
        else
          let status := bitsOf (f.words.getD 7 0) 8 0
          let data := (f.words.drop 8).take (min 64 (bitsOf (f.words.getD 5 0) 6 0))
          .next ((s.setLink k { x with outstanding := none }).complete r.ticket
            (if status = 0 then { data := data } else { status := stRefused, detail := status }))
      | none => .next s

/-- ACYCLIC_TIMEOUT (R229): the third time without a reply completes NORESP. -/
def execAcyclicTimeout (k : Nat) (s : State) : Out :=
  if 15 < k then .next s
  else
    let x := s.link k
    match x.outstanding with
    | some r =>
      if !r.out then .next s
      else if r.tries < 3 then .next (s.setLink k { x with outstanding := some { r with out := false } })
      else .next ((s.setLink k { x with outstanding := none }).complete r.ticket { status := stNoresp })
    | none => .next s

/-- SUBST_SET (R225, R230): a station's substitute words, kept in its four pages. -/
def execSubstSet (q : Req) (s : State) : Out :=
  .next (runCommand 1 0o061 2 q s fun s q k cred =>
    let i := min 255 q.desc.a0.toNat
    let first := min 255 q.desc.a1.toNat
    let n := min (clampTo 1 256 q.desc.a2.toNat) (256 - first)
    (s.changedBy cred q).queueJob
      { owner := s.pageOwner 1 q.origin, ticket := some k
        work := .words (1024 + 4 * i + first / 64) (first % 64) ((List.range n).map fun j => q.data.getD j 0) })

/-- STATION_STATUS (R230). -/
def execStationStatus (q : Req) (s : State) : Out :=
  .next (runCommand 1 0o062 1 q s fun s q k _ =>
    let i := min 255 q.desc.a0.toNat
    let st := s.station i
    let atEnd1 := s.linkRing (i / 16) && s.linkEnd (i / 16)
    s.complete k { data :=
      [word (if atEnd1 then st.offsetFar else st.offset), word (if atEnd1 then st.offset else st.offsetFar),
       word st.delta, st.b0, lowWord st.dropouts, highWord st.dropouts, lowWord st.badFcs, highWord st.badFcs] })

/-! ## Relxon Lintel compatibility (R232, R233) -/

/-- The position polled after `p`, in address order. -/
def nextRack (ps : List Nat) (p : Nat) : Option Nat := (ps.find? fun q => decide (p < q)).orElse fun _ => ps.head?

/-- The words a rack is polled with: the output words committed at P, 16 bits each, for an admitted rack while outputs follow
the output image (R233). DESIGN CHOICE: else none, as a rack has no safe marker and goes by its own timeout. -/
def State.pollWords (s : State) (i : Nat) : List Word :=
  if (s.station i).present ∧ s.outputsLive then
    (List.range (s.owords i)).map fun j => Tbl.get 0 s.work.mortar.emitted (s.obase i + j) &&& 0o177_777
  else []

/-- LINTEL_POLL (R233): one rack at a time in address order, one outstanding request; on a link that is down it goes unanswered. -/
def execLintelPoll (k : Nat) (s : State) : Out :=
  if 15 < k ∨ s.linkMode k ≠ 1 ∨ !s.md.mode.ticks then .next s
  else
    let x := s.link k
    if x.polling then .next s
    else match nextRack (s.positions k) x.rack with
      | none => .next s
      | some p =>
        let i := 16 * k + p
        .next ((s.setLink k { x with rack := p, polling := true }).setStation i
          { s.station i with polled := s.pollWords i })

/-- LINTEL_REPLY (R233): the words of each module it carries, from one reply, 16 bits each. -/
def execLintelReply (k : Nat) (modules : List (Nat × List Word)) (s : State) : Out :=
  if 15 < k ∨ !(s.link k).polling ∨ !(s.link k).up then .next s
  else
    let x := s.link k
    let i := 16 * k + x.rack
    let put (m : Tbl Word) (e : Nat × List Word) : Tbl Word :=
      Tbl.setMany 0 m (256 * x.rack + e.1 % 256) ((e.2.take (256 - e.1 % 256)).map fun w => w &&& 0o177_777)
    .next ((s.setLink k { x with polling := false, modules := modules.foldl put x.modules }).setStation i
      { s.station i with missed := 0, replied := true })

/-- LINTEL_REPLY_TIMEOUT (R233): a missed poll. -/
def execLintelReplyTimeout (k : Nat) (s : State) : Out :=
  if 15 < k ∨ !(s.link k).polling then .next s
  else
    let x := s.link k
    let i := 16 * k + x.rack
    .next ((s.setLink k { x with polling := false }).setStation i { s.station i with missed := (s.station i).missed + 1 })

end Sys2Proof.Machine
end

