-- ==== Sys2Proof/Machine/ClockWatchdog.lean ====
section
/-!
DEFINITION. The real-time clock, the backup words and the window watchdog (R434–R457).
-/

namespace Sys2Proof.Machine

/-! ## The calendar (R437, R438) -/

/-- Seconds in the range of the clock: 400 Gregorian years (R437). -/
def clockRange : Nat := 146097 * 86400

/-- Leap years (R437). -/
def leapYear (y : Nat) : Bool := y % 4 == 0 && (y % 100 != 0 || y % 400 == 0)

/-- Days of a month, 1–12. -/
def monthDays (y m : Nat) : Nat :=
  if m = 2 then (if leapYear y then 29 else 28)
  else if m = 4 ∨ m = 6 ∨ m = 9 ∨ m = 11 then 30 else 31

/-- Days from 2000-01-01 to a date, by counting years from 1 March. -/
def daysOf (y m d : Nat) : Nat :=
  let y' := if m ≤ 2 then y - 1 else y
  let yoe := y' % 400
  let doy := (153 * (if 2 < m then m - 3 else m + 9) + 2) / 5 + d - 1
  y' / 400 * 146097 + (yoe * 365 + yoe / 4 - yoe / 100 + doy) - 730425

/-- Year, month and day of a number of days since 2000-01-01. -/
def dateOf (days : Nat) : Nat × Nat × Nat :=
  let z := days + 730425
  let doe := z % 146097
  let yoe := (doe - doe / 1460 + doe / 36524 - doe / 146096) / 365
  let doy := doe - (365 * yoe + yoe / 4 - yoe / 100)
  let mp := (5 * doy + 2) / 153
  let m := if mp < 10 then mp + 3 else mp - 9
  (yoe + z / 146097 * 400 + flagNat (decide (m ≤ 2)), m, doy - (153 * mp + 2) / 5 + 1)

/-- RTC_TIME of a second (R447). -/
def timeWord (sec : Nat) : Word :=
  let t := sec % 86400
  word (fieldAt (t / 3600) 12 + fieldAt (t / 60 % 60) 6 + t % 60)

/-- RTC_DATE of a second (R447). -/
def dateWord (sec : Nat) : Word :=
  let (y, m, d) := dateOf (sec / 86400)
  word (fieldAt (y - 2000) 9 + fieldAt m 5 + d)

/-- A time word with its fields clamped (R438). -/
def clampTime (w : Word) : Word :=
  word (fieldAt (min 23 (bitsOf w 16 12)) 12 + fieldAt (min 59 (bitsOf w 11 6)) 6 + min 59 (bitsOf w 5 0))

/-- A date word with YEAR and MON clamped (R438). -/
def clampMonth (w : Word) : Word :=
  word (fieldAt (min 399 (bitsOf w 17 9)) 9 + fieldAt (clampTo 1 12 (bitsOf w 8 5)) 5 + bitsOf w 4 0)

/-- A date word with DAY clamped against its month and year too (R438). -/
def clampDate (w : Word) : Word :=
  let c := clampMonth w
  let y := 2000 + bitsOf c 17 9
  let m := bitsOf c 8 5
  word (fieldAt (bitsOf c 17 9) 9 + fieldAt m 5 + clampTo 1 (monthDays y m) (bitsOf c 4 0))

/-- Seconds since 2000-01-01 of a clamped time and date word. -/
def secondsOf (time date : Word) : Nat :=
  daysOf (2000 + bitsOf date 17 9) (bitsOf date 8 5) (bitsOf date 4 0) * 86400 +
    bitsOf time 16 12 * 3600 + bitsOf time 11 6 * 60 + bitsOf time 5 0

/-! ## Time passing -/

/-- The clock after a number of oscillator counts; past its range it stays at the last second (R437). -/
def Clock.run (c : Clock) (counts : Nat) : Clock :=
  let n := c.sub / 8 + counts
  let sec := c.sec + n / 2 ^ 15
  { c with sub := n % 2 ^ 15 * 8, sec := min sec (clockRange - 1), wrapend := c.wrapend || decide (clockRange ≤ sec) }

/-- Counts that RTC_CAL inserts, or deletes, among a number of oscillator counts (R439). -/
def Clock.calibrate (c : Clock) (counts : Nat) : Clock × Int :=
  let t := c.calPart + counts * c.cal
  ({ c with calPart := t.tmod 10000000 }, t.tdiv 10000000)

/-- Counts that the slew inserts, or deletes, among a number of oscillator counts (R444): at a rate of at most 500 ppm, until the
difference lies below one count, which is 30 µs. -/
def Clock.slewBy (c : Clock) (counts : Nat) : Clock × Int :=
  if c.slew.natAbs < 8 then ({ c with slewPart := 0 }, 0)
  else
    let t := c.slewPart + counts * min 500 Config.slewRate
    let n : Nat := min (t / 1000000) (c.slew.natAbs / 8)
    let moved : Int := if c.slew < 0 then -(n : Int) else n
    ({ c with slewPart := t % 1000000, slew := c.slew - 8 * moved }, moved)

/-- The clock after a number of oscillator counts, with RTC_CAL and, while the foreman `slews`, the slew. -/
def Clock.pass (c : Clock) (counts : Nat) (slews : Bool) : Clock :=
  let (c1, a) := c.calibrate counts
  let (c2, b) := if slews then c1.slewBy counts else (c1, 0)
  c2.run ((counts : Int) + a + b).toNat

/-- The watchdog counts whole periods while it runs (R449, R453). -/
def Watchdog.elapse (w : Watchdog) (us : Nat) : Watchdog := if w.run && !w.expired then { w with c := w.c + us } else w

/-- Counts of 2⁻¹⁵ s in an hour. -/
def hourCounts : Nat := 32768 * 3600

/-- Operating time of a die (R158). -/
def Die.operate (x : Die) (counts : Nat) : Die :=
  { x with hours := x.hours + (x.counts + counts) / hourCounts, counts := (x.counts + counts) % hourCounts }

/-- Operating time counts while PD3 or PD4 powers the die (R158, R490). -/
def State.operate (s : State) (counts : Nat) : State :=
  (List.range s.dieCount).foldl (fun (s : State) i =>
    if s.domainOn (if i < 3 then 3 else 4) then s.setDie (i + 1) ((s.die (i + 1)).operate counts) else s) s

/-- Time passes: the clock runs in every mode but Off (R434), the watchdog where PD1 is on; memory errors arise (R143). -/
def State.elapse (s : State) (e : Elapsed) : State :=
  let c := if s.md.mode = .off then s.clock else s.clock.pass e.counts (s.md.mode.powered && s.train.tstate == 2)
  { s.operate e.counts with clock := c, watchdog := if s.md.mode.powered then s.watchdog.elapse e.us else s.watchdog
                            upsets := s.upsets ++ e.upsets }

/-! ## Alarms (R445, R446) -/

/-- Alarm `k`. -/
def Clock.alarm (c : Clock) (k : Nat) : Alarm := Tbl.get {} c.alarms k
/-- Write alarm `k`. -/
def Clock.setAlarm (c : Clock) (k : Nat) (a : Alarm) : Clock := { c with alarms := Tbl.set {} c.alarms k a }

/-- The second an alarm stands for. -/
def Alarm.sec (a : Alarm) : Nat := secondsOf (clampTime a.time) (clampDate a.date)

/-- The event of a firing (R456). -/
def alarmEvent (k : Nat) (skipped : Bool) (tick : Nat) : Event :=
  { code := .given 0o002_102, data := [k, flagNat skipped, tick % 2 ^ 18, tick / 2 ^ 18] }

/-- An armed alarm fires: ARM clears, FIRED is set, the event is recorded, or owed to the next Start while the recorder
is closed (R445, R446). -/
def State.fireAlarm (s : State) (k : Nat) (skipped : Bool) : State :=
  let a := s.clock.alarm k
  let c := s.clock.setAlarm k { a with arm := false, fired := true, skipped := skipped, owed := !s.recorder.open_ }
  let rep := c.report ||| word (2 ^ k) ||| (if skipped then word (2 ^ (k + 2)) else 0)
  ({ s with clock := { c with report := rep } }).record (alarmEvent k skipped s.tickNumber)

/-- An alarm that fired while the recorder was closed is recorded at the next Start (R445). -/
def State.tellAlarm (s : State) (k : Nat) : State :=
  let a := s.clock.alarm k
  if a.owed then
    ({ s with clock := s.clock.setAlarm k { a with owed := false } }).record (alarmEvent k a.skipped s.tickNumber)
  else s

/-- Evaluate an armed alarm at a commit: a commit to or past its time fires it, SKIPPED when the clock moved forward
(R446). -/
def State.alarmAtCommit (s : State) (forward : Bool) (k : Nat) : State :=
  let a := s.clock.alarm k
  if a.arm ∧ a.sec ≤ s.clock.sec then s.fireAlarm k forward else s

/-- ALARM_FIRE (R445): the live clock reaches an armed alarm's time. -/
def execAlarmFire (k : Nat) (s : State) : Out :=
  let a := s.clock.alarm k
  if 1 < k ∨ !a.arm ∨ s.md.mode = .off then .next s
  else
    let c := if s.clock.sec < a.sec then { s.clock with sec := a.sec, sub := 0 } else s.clock
    .next (({ s with clock := c }).fireAlarm k false)

/-- Arm an alarm: one whose time has passed fires at once (R445). -/
def State.armAlarm (s : State) (k : Nat) : State :=
  let a := s.clock.alarm k
  if a.arm then s
  else
    let s1 := { s with clock := s.clock.setAlarm k { a with arm := true } }
    if a.sec ≤ s.clock.sec then s1.fireAlarm k false else s1

/-- ALARM_ARM (R445, R447). -/
def execAlarmArm (m k : Nat) (session : Option Nat) (s : State) : Out :=
  let w := s.writer m session
  if 1 < k ∨ !s.reaches m then .next s
  else if w.right < 2 then .next (s.refuse w)
  else .next ((s.changed w.cred (0o014_012 + 4 * k) 0o400_000 m).armAlarm k)

/-! ## Setting (R441, R442, R444) -/

/-- HALT_SET (R441): an installer, or the foreman for its own correction, becomes the stager. -/
def State.haltSet (s : State) (w : Writer) : State :=
  if w.right < 2 ∧ w.m ≠ 0 then s.refuse w
  else if s.clock.halt then s
  else { s with clock := { s.clock with halt := true, stager := w.m, stagerCred := w.cred, stSub := none, stTime := none, stDate := none } }

/-- HALT_SET (R441). -/
def execHaltSet (m : Nat) (session : Option Nat) (s : State) : Out :=
  if !s.reaches m then .next s else .next (s.haltSet (s.writer m session))

/-- A write to RTC_SUB, RTC_TIME or RTC_DATE: staged for the stager, else dropped with WRLOST (R441). -/
def State.stageWrite (s : State) (m idx : Nat) (v : Word) : State :=
  let c := s.clock
  if !c.halt ∨ c.stager ≠ m then { s with clock := { c with wrlost := true } }
  else if idx = 0o014_001 then { s with clock := { c with stSub := some (v &&& 0o777_770) } }
  else if idx = 0o014_004 then { s with clock := { c with stTime := some (clampTime v) } }
  else if idx = 0o014_005 then { s with clock := { c with stDate := some (clampMonth v) } }
  else s

/-- CLOCK_STAGE_WRITE (R441). -/
def execClockStageWrite (m idx : Nat) (v : Word) (s : State) : Out :=
  if !s.reaches m then .next s else .next (s.stageWrite m idx v)

/-- The clock takes a new time in one cycle (R442): OSTOP clears when TIME or DATE was staged, the alarms are
evaluated, and event 0o002_100 is recorded with the credential of the stager (R467). -/
def State.setClock (s : State) (sec sub : Nat) (calendar train : Bool) (cred : Cred) : State :=
  let old := s.clock
  let c := { old with sec := min sec (clockRange - 1), sub := sub, src := train, halt := false, stager := noOwner, stagerCred := {},
                      stSub := none, stTime := none, stDate := none,
                      ostop := old.ostop && !calendar, ocause := if calendar then 0 else old.ocause }
  let forward := decide (old.sec < c.sec) || (old.sec == c.sec && decide (old.sub ≤ sub))
  let s1 := (({ s with clock := c }).alarmAtCommit forward 0).alarmAtCommit forward 1
  s1.eventBy cred 0o002_100 (flagNat train) (saturate18 ((c.sec : Int) - old.sec))

/-- The commit of the staged fields (R442). -/
def State.commitClock (s : State) : State :=
  let c := s.clock
  let calendar := c.stTime.isSome || c.stDate.isSome
  if c.stSub.isNone ∧ !calendar then { s with clock := { c with halt := false, stager := noOwner, stagerCred := {} } }
  else
    let time := c.stTime.getD (timeWord c.sec)
    let date := clampDate (c.stDate.getD (dateWord c.sec))
    let sub := match c.stSub with | some v => v.toNat | none => if calendar then 0 else c.sub
    s.setClock (secondsOf time date) sub calendar false c.stagerCred

/-- CLOCK_COMMIT (R441, R442): the stager's write of HALT = 0. -/
def execClockCommit (m : Nat) (el : Elapsed) (s : State) : Out :=
  let s := s.elapse el
  if !s.reaches m ∨ !s.clock.halt ∨ s.clock.stager ≠ m then .next s else .next s.commitClock

/-- CLOCK_CORRECTION (R444): once per second of train time in TSTATE 2; `err` is train UTC minus clock time in 2⁻¹⁸ s.
A difference below one second is slewed until it is below 30 µs; a larger one, or a stopped oscillator, makes a step,
which waits while staging is open. -/
def execClockCorrection (err : Int) (s : State) : Out :=
  if s.train.tstate ≠ 2 ∨ !s.md.mode.powered then .next s
  else if err.natAbs < 2 ^ 18 ∧ !s.clock.ostop then
    .next { s with clock := { s.clock with slew := if err.natAbs * 1000000 < 30 * 2 ^ 18 then 0 else err } }
  else if s.clock.halt then .next s
  else
    let t : Nat := ((s.clock.sec * 2 ^ 18 + s.clock.sub : Nat) + err).toNat
    .next (({ s with clock := { s.clock with slew := 0 } }).setClock (t / 2 ^ 18) (t % 2 ^ 18 / 8 * 8) true true {})

/-- RTC_CAL clamped (R439). -/
def clampCal (v : Int) : Int := max (-2000) (min 2000 v)

/-- CALIBRATION_UPDATE (R444): the foreman writes the measured mean rate. -/
def execCalibrationUpdate (rate : Int) (s : State) : Out :=
  if s.train.tstate ≠ 2 ∨ !s.md.mode.powered then .next s
  else .next { s with clock := { s.clock with cal := clampCal rate } }

/-! ## Frost and thaw (R440) -/

/-- The masters that have a shadow. -/
def State.hasShadow (s : State) (m : Nat) : Bool := s.reaches m || m == 2

/-- The live values as a shadow. -/
def Clock.live (c : Clock) : Shadow := ⟨c.sub, c.sec, timeWord c.sec, dateWord c.sec⟩

/-- What a master reads: its shadow while it is frosted, else the live values (R440). -/
def Clock.seen (c : Clock) (m : Nat) : Shadow := (Tbl.get none c.shadows m).getD c.live

/-- FROST_READ (R440): the live values are copied into the master's shadow in one cycle. -/
def execFrostRead (m : Nat) (el : Elapsed) (s : State) : Out :=
  let s := s.elapse el
  if !s.hasShadow m then .next (s.answer 0)
  else .next { s.answer (word s.clock.sub) with
    clock := { s.clock with shadows := Tbl.set none s.clock.shadows m (some s.clock.live) } }

/-- Clear a master's FROST. -/
def State.thaw (s : State) (m : Nat) : State :=
  { s with clock := { s.clock with shadows := Tbl.set none s.clock.shadows m none } }

/-- THAW_READ (R440). -/
def execThawRead (m : Nat) (s : State) : Out :=
  if !s.hasShadow m then .next (s.answer 0) else .next ((s.answer (s.clock.seen m).date).thaw m)

/-- FROST_TIMEOUT (R440). -/
def execFrostTimeout (m : Nat) (s : State) : Out := .next (s.thaw m)

/-! ## The backup domain (R434, R436, R443) -/

/-- The oscillator has stopped: OSTOP is set and CONT cleared (R436, R443). -/
def Clock.stop (c : Clock) (cause : Nat) : Clock :=
  { c.setCont false with ostop := true, ocause := cause, ostopTold := c.ostopTold && c.ostop }

/-- OSCILLATOR_STOP (R443): no edge for 1 ms while PD0 is powered. -/
def execOscillatorStop (s : State) : Out :=
  if s.md.mode = .off then .next s else .next { s with clock := s.clock.stop 2 }

/-- PD0 powers up from no supply (R436, R443): every backup word reads 0 and OSTOP is set with OCAUSE 1; what the
calendar, the alarms and RTC_CAL then hold the spec does not say, so they are free values in their ranges. -/
def State.powerClock (s : State) : State :=
  let f (i : Nat) : Word := Config.freeWord (s.fresh + i)
  let alarm (i : Nat) : Alarm :=
    { time := clampTime (f i), date := clampDate (f (i + 1)), arm := bitOf (f (i + 2)) 17, fired := bitOf (f (i + 2)) 16,
      skipped := bitOf (f (i + 2)) 15 }
  let c : Clock :=
    { sec := joinNat (f 0) (f 1) % clockRange, sub := (f 2 &&& 0o777_770).toNat, ostop := true, ocause := 1,
      src := bitOf (f 3) 11, wrapend := bitOf (f 3) 6, cal := clampCal (signedOf 12 (f 4).toNat),
      alarms := Tbl.set {} (Tbl.set {} [] 0 (alarm 5)) 1 (alarm 8), bkext := s.clock.bkext }
  { s with clock := c, fresh := s.fresh + 11 }

/-- BACKUP_INPUT_CHANGE (R434): while no feed is present PD0 is supplied from the external input when it is in range. -/
def execBackupInputChange (inRange : Bool) (s : State) : Out := .next { s with clock := { s.clock with bkext := inRange } }

/-- CLOCK_RANGE_END (R437). -/
def execClockRangeEnd (s : State) : Out :=
  if s.md.mode = .off then .next s
  else .next { s with clock := { s.clock with sec := clockRange - 1, wrapend := true } }

/-- The first Start that finds OSTOP set records it, and alarms fired while the recorder was closed (R443, R445). -/
def State.tellClock (s : State) : State :=
  let s1 := if s.clock.ostop ∧ !s.clock.ostopTold then
      ({ s with clock := { s.clock with ostopTold := true } }).event 0o002_101 0 0 s.clock.ocause 0
    else s
  (s1.tellAlarm 0).tellAlarm 1

/-! ## The watchdog (R448–R455) -/

/-- The watchdog's set-up registers (R455). -/
def watchdogIndex (i : Nat) : Bool :=
  (decide (0o014_100 ≤ i) && decide (i ≤ 0o014_102)) || (decide (0o014_120 ≤ i) && decide (i ≤ 0o014_137))

/-- WD_CFG, WD_OPEN and WD_CLOSE in effect; WD_CHKj in effect. -/
def Watchdog.cfg (w : Watchdog) : Word := (Tbl.get none w.inEffect 0o014_100).getD 0
/-- O in periods of 1 µs (R449). -/
def Watchdog.opens (w : Watchdog) : Nat := 100 * max 1 ((Tbl.get none w.inEffect 0o014_101).getD 1).toNat
/-- C in periods of 1 µs (R449). -/
def Watchdog.closes (w : Watchdog) : Nat := 100 * max 2 ((Tbl.get none w.inEffect 0o014_102).getD 0o023_420).toNat
/-- Slot `j` in effect is enabled. -/
def Watchdog.slotOn (w : Watchdog) (j : Nat) : Bool := bitOf ((Tbl.get none w.inEffect (0o014_120 + j)).getD 0o000_003) 17

/-- WD_CHKj as set up. -/
def State.wdChk (s : State) (j : Nat) : Word := s.setupOr (0o014_120 + j) 0o000_003

/-- The task a slot is bound to: below 3 taken as 3 (R455). -/
def wdTask (w : Word) : Nat := max 3 (bitsOf w 7 0)

/-- The slots set up as enabled. -/
def State.wdSlots (s : State) : List Nat := (List.range 16).filter fun j => bitOf (s.wdChk j) 17

/-- A service, or a restart at a change of source: c restarts, the check-in set clears, and the set-up values written
take effect (R449, R450, R455). -/
def State.wdServe (s : State) : State :=
  { s with watchdog := { s.watchdog with c := 0, chks := 0, inEffect := Tbl.keep (fun i _ => watchdogIndex i) s.setup } }

/-- Expiry (R453): the cause goes to BK_W0 and WD_STAT, WD_TRIP is pulsed, Safe is due, the event is recorded. -/
def State.wdExpire (s : State) (cause miss : Nat) : State :=
  let s1 := { s with
    clock := s.clock.setBk 0 ((s.clock.bk 0 &&& 0o777_770) ||| word cause)
    watchdog := { s.watchdog with expired := true, cause := cause, miss := miss, trips := s.watchdog.trips + 1 } }
  s1.oweSafe.event 0o002_103 0 0 cause miss

/-- The slots that have not checked in, while the check-in set is the source of service. -/
def Watchdog.missing (w : Watchdog) : Nat :=
  if w.srcf then 0
  else (List.range 16).foldl (fun n j => if w.slotOn j && !(w.chks.testBit j) then n + 2 ^ j else n) 0

/-- A service is judged by the period it arrives in (R449). -/
def State.wdJudge (s : State) : State :=
  let w := s.watchdog
  if !w.run ∨ w.expired then s
  else if w.c < w.opens then s.wdExpire 2 w.miss
  else if w.c < w.closes then s.wdServe
  else s.wdExpire 1 w.missing

/-- WATCHDOG_SERVICE (R450): the foreman's key; anything else is ignored and counted. DEDUCED: so is the key while the check-in set
is the source of service. -/
def execWatchdogService (m : Nat) (v : Word) (el : Elapsed) (s : State) : Out :=
  let s := s.elapse el
  if !s.reaches m then .next s
  else if m ≠ 0 ∨ v ≠ 0o525_252 ∨ !s.watchdog.srcf then .next s.ignore
  else .next s.wdJudge

/-- WATCHDOG_LATE (R449): period C begins with no service before it. -/
def execWatchdogLate (s : State) : Out :=
  let w := s.watchdog
  if !w.run ∨ w.expired then .next s
  else .next (({ s with watchdog := { w with c := w.closes } }).wdExpire 1 w.missing)

/-- WATCHDOG_CLOCK_FAULT (R448). -/
def execWatchdogClockFault (s : State) : Out :=
  if !s.watchdog.run ∨ s.watchdog.expired then .next s else .next (s.wdExpire 4 s.watchdog.miss)

/-- MONITOR_CLOCK_LOSS (R448). -/
def execMonitorClockLoss (s : State) : Out :=
  .next (({ s with watchdog := { s.watchdog with monlost := true } }).event 0o002_104 0 0
    (flagNat (bitOf s.watchdog.cfg 16)) 0)

/-- The slots whose word changed at this P (R451): `old` and `new` give output word j. -/
def Watchdog.changed (w : Watchdog) (old new : Nat → Word) : List Nat :=
  (List.range 16).filter fun j => w.slotOn j && old j != new j

/-- The check-ins of one P, after the commit (R451): a second change on a set bit expires at once; a complete set is a
service. -/
def State.wdCheckIn (s : State) (old new : Nat → Word) : State :=
  let w := s.watchdog
  if !w.run ∨ w.expired ∨ w.srcf then s
  else
    let hit := w.changed old new
    let twice := (hit.filter fun j => w.chks.testBit j).foldl (fun n j => n + 2 ^ j) 0
    if twice ≠ 0 then s.wdExpire 3 twice
    else
      let w1 := { w with chks := hit.foldl (fun n j => n + 2 ^ j) w.chks }
      let s1 := { s with watchdog := w1 }
      if (List.range 16).all fun j => !w.slotOn j || w1.chks.testBit j then s1.wdJudge else s1

/-- The source of service follows the mode; at a change c restarts and the set clears, unjudged (R450). -/
def State.wdSource (s : State) : State :=
  let tasks := match s.md.mode with | .run | .takeover | .track => true | _ => false
  let foreman := !(tasks && !s.wdSlots.isEmpty)
  if foreman = s.watchdog.srcf then s
  else
    let s1 := s.wdServe
    { s1 with watchdog := { s1.watchdog with srcf := foreman } }

/-- The acknowledgement that leaves Safe re-arms an expired watchdog (R453). DESIGN CHOICE: CAUSE and WD_MISS stand until the next
expiry. -/
def State.wdRearm (s : State) : State :=
  if s.watchdog.expired then { s with watchdog := { s.watchdog with expired := false, c := 0, chks := 0 } } else s

/-- The watchdog at step 1 (R454): with hardware start it runs on the reset values, else it is idle. -/
def State.wdStart (s : State) : State :=
  let w := s.watchdog
  { s with watchdog := { w with run := w.hwStart, inEffect := [], c := 0, expired := false, cause := 0, monlost := false,
                                srcf := true, chks := 0, miss := 0 } }

/-- An idle watchdog begins to run with a first window, on the values in effect (R454). -/
def State.wdRun (s : State) : State :=
  if s.watchdog.run then s else { s with watchdog := { s.watchdog with run := true, c := 0, chks := 0 } }

/-- The settings loaded at step 3 hold EN = 1 (R454). -/
def State.wdSettings (s : State) : State := if bitOf (s.setupOr 0o014_100 0) 17 then s.wdRun else s

/-- A Run request's checks (R451, R452): every enabled slot's word in its task's write set, and a window that accepts
sets completed at boundaries. -/
def State.wdAllowsRun (s : State) : Bool :=
  let slots := s.wdSlots
  let o := 100 * (s.setupOr 0o014_101 1).toNat
  let c := 100 * (s.setupOr 0o014_102 0o023_420).toNat
  let p := s.tick.period
  let inSet (j : Nat) : Bool := s.work.program.tasks.any fun d =>
    d.task == wdTask (s.wdChk j) && d.writes.any fun r =>
      r.area == 1 && decide (r.first ≤ 0o077_040 + j) && decide (0o077_040 + j < r.first + r.len)
  slots.isEmpty || (slots.all inSet && decide (100 * o < 95 * p) && decide (105 * p < 100 * c))

/-! ## Registers (R447, R455) -/

/-- A clock or backup register as a master reads it. -/
def State.readClock (s : State) (m right idx : Nat) : Word :=
  let c := s.clock
  let v := c.seen m
  let alarmWord (k w : Nat) : Word :=
    let a := c.alarm k
    match w with
    | 0 => clampTime a.time
    | 1 => clampDate a.date
    | _ => word (fieldAt (flagNat a.arm) 17 + fieldAt (flagNat a.fired) 16 + fieldAt (flagNat a.skipped) 15)
  if idx = 0o014_000 then
    word (fieldAt (flagNat c.halt) 17 + fieldAt (flagNat c.wrlost) 16 + fieldAt (flagNat c.ostop) 15 + fieldAt c.ocause 13 +
      fieldAt (flagNat (Tbl.get none c.shadows m).isSome) 12 + fieldAt (flagNat c.src) 11 +
      fieldAt (flagNat c.stDate.isSome) 10 + fieldAt (flagNat c.stTime.isSome) 9 + fieldAt (flagNat c.stSub.isSome) 8 +
      fieldAt (flagNat (c.bkext && !s.md.mode.powered)) 7 + fieldAt (flagNat c.wrapend) 6)
  else if idx = 0o014_001 then word v.sub
  else if idx = 0o014_002 then lowWord v.lin
  else if idx = 0o014_003 then highWord v.lin
  else if idx = 0o014_004 then v.time
  else if idx = 0o014_005 then v.date
  else if idx = 0o014_006 then word (signedField 12 c.cal)
  else if 0o014_010 ≤ idx ∧ idx ≤ 0o014_012 then alarmWord 0 (idx - 0o014_010)
  else if 0o014_014 ≤ idx ∧ idx ≤ 0o014_016 then alarmWord 1 (idx - 0o014_014)
  else if 0o014_040 ≤ idx ∧ idx ≤ 0o014_067 then
    if 0o014_044 ≤ idx ∧ right < 1 then 0 else c.bk (idx - 0o014_040)
  else 0

/-- A write of an alarm's time, date or control word (R445): the first two only while ARM is 0, else WRLOST. -/
def State.writeAlarm (s : State) (k i : Nat) (v : Word) : State :=
  let a := s.clock.alarm k
  match i with
  | 2 =>
    let a1 := { a with fired := a.fired && !bitOf v 16, skipped := a.skipped && !bitOf v 15, arm := a.arm && bitOf v 17 }
    let s1 := { s with clock := s.clock.setAlarm k a1 }
    if bitOf v 17 then s1.armAlarm k else s1
  | _ =>
    if a.arm then { s with clock := { s.clock with wrlost := true } }
    else if i = 0 then { s with clock := s.clock.setAlarm k { a with time := clampTime v } }
    else { s with clock := s.clock.setAlarm k { a with date := clampDate v } }

/-- A write to a clock or backup register (R436, R441, R445, R447). -/
def State.writeClock (s : State) (w : Writer) (idx : Nat) (v : Word) : State :=
  if idx = 0o014_000 then
    let clear (x : State) : State := if bitOf v 16 then { x with clock := { x.clock with wrlost := false } } else x
    if bitOf v 17 then clear (s.haltSet w)
    else if s.clock.halt ∧ s.clock.stager = w.m then clear s.commitClock
    else if w.right < 2 then s.refuse w else clear s
  else if idx = 0o014_001 ∨ idx = 0o014_004 ∨ idx = 0o014_005 then s.stageWrite w.m idx v
  else if 0o014_040 ≤ idx ∧ idx ≤ 0o014_043 then
    if w.m = 0 then { s with clock := s.clock.setBk (idx - 0o014_040) v } else s.refuse w
  else if w.right < 2 then s.refuse w
  else
    let s1 := s.changed w.cred idx v.toNat w.m
    if idx = 0o014_006 then { s1 with clock := { s.clock with cal := clampCal (signedOf 12 v.toNat) } }
    else if 0o014_010 ≤ idx ∧ idx ≤ 0o014_012 then s1.writeAlarm 0 (idx - 0o014_010) v
    else if 0o014_014 ≤ idx ∧ idx ≤ 0o014_016 then s1.writeAlarm 1 (idx - 0o014_014) v
    else if 0o014_044 ≤ idx ∧ idx ≤ 0o014_067 then { s1 with clock := s.clock.setBk (idx - 0o014_040) v }
    else s

/-- A watchdog register as read (R455). -/
def State.readWatchdog (s : State) (idx : Nat) : Word :=
  let w := s.watchdog
  if idx = 0o014_100 then
    word (fieldAt (flagNat (w.hwStart || bitOf (s.setupOr idx 0) 17)) 17 + fieldAt (flagNat (bitOf (s.setupOr idx 0) 16)) 16 +
      fieldAt (flagNat w.hwStart) 15)
  else if idx = 0o014_101 then s.setupOr idx 1
  else if idx = 0o014_102 then s.setupOr idx 0o023_420
  else if idx = 0o014_103 then
    word (fieldAt (flagNat (w.run && !w.expired)) 17 + fieldAt (flagNat w.expired) 16 + fieldAt w.cause 13 +
      fieldAt (flagNat w.monlost) 12 + fieldAt (flagNat w.srcf) 11)
  else if idx = 0o014_105 then word w.chks
  else if idx = 0o014_106 then word w.miss
  else if 0o014_120 ≤ idx ∧ idx ≤ 0o014_137 then s.wdChk (idx - 0o014_120)
  else 0

/-- The value a watchdog set-up register keeps of a write (R454, R455). -/
def State.wdValue (s : State) (idx : Nat) (v : Word) : Word :=
  if idx = 0o014_100 then
    word (fieldAt (flagNat (bitOf v 17 || (s.watchdog.run && bitOf (s.setupOr idx 0) 17))) 17 + fieldAt (flagNat (bitOf v 16)) 16)
  else if idx = 0o014_101 then word (clampTo 1 (s.watchdog.closes / 100 - 1) v.toNat)
  else if idx = 0o014_102 then word (max 2 v.toNat)
  else word (fieldAt (flagNat (bitOf v 17)) 17 + wdTask v)

/-- A write to a watchdog register (R448, R450, R454, R455). -/
def State.writeWatchdog (s : State) (w : Writer) (idx : Nat) (v : Word) : State :=
  if idx = 0o014_104 then
    if w.m ≠ 0 ∨ v ≠ 0o525_252 ∨ !s.watchdog.srcf then s.ignore else s.wdJudge
  else if idx = 0o014_103 then
    if bitOf v 12 then { s with watchdog := { s.watchdog with monlost := false } } else s
  else if !watchdogIndex idx then s
  else if s.md.mode ≠ .stop ∨ w.right < 2 then s.refuseRecorded w idx v
  else
    let s1 := s.takeSetup w idx (s.wdValue idx v)
    if idx = 0o014_100 ∧ bitOf v 17 then s1.wdRun else s1

end Sys2Proof.Machine
end

