-- ==== Sys2Proof/Machine/Train.lean ====
section
/-!
DEFINITION. Train networks, inauguration and train time (R298–R317), and receive rings (R325, R334).
-/

namespace Sys2Proof.Machine

/-! ## Receive rings (R268, R277, R334) -/

/-- Entries of a receive ring. -/
def RxRingState.size (x : RxRingState) : Nat := 2 ^ clampTo 3 12 x.log2s

/-- The receive ring has no room. -/
def RxRingState.full (x : RxRingState) : Bool := decide (x.size ≤ x.entries.length)

/-- PHASE of the next entry: 1 while the count's pass over the ring is even (R277). -/
def RxRingState.phase (x : RxRingState) : Bool := x.pi / x.size % 2 == 0

/-- Write an entry. -/
def RxRingState.push (x : RxRingState) (e : List Word) : RxRingState :=
  { x with pi := (x.pi + 1) % 65536, entries := x.entries ++ [e] }

/-- A write to RX_CI consumes entries, clamped as QCI is (R278, R334). -/
def RxRingState.consume (x : RxRingState) (v : Nat) : RxRingState :=
  let n := min ((v + 65536 - x.ci) % 65536) ((x.pi + 65536 - x.ci) % 65536)
  { x with ci := (x.ci + n) % 65536, entries := x.entries.drop n }

/-- The ring a receive ring belongs to. -/
def rxOwner : RxRing → Nat
  | .can => 2
  | .serial => 3
  | .message => 8

/-- RECEIVE_DOORBELL (R334): the owner of the ring consumes entries; another master's write is ignored and counted. -/
def execReceiveDoorbell (m : Nat) (k : RxRing) (v : Word) (s : State) : Out :=
  if !s.reaches m then .next s
  else if (s.ring (rxOwner k)).owner ≠ m then .next s.ignore
  else
    let n := bitsOf v 15 0
    match k with
    | .can => .next { s with canRx := s.canRx.consume n }
    | .serial => .next { s with serialRx := s.serialRx.consume n }
    | .message => .next { s with train := { s.train with messages := s.train.messages.consume n } }

/-! ## The telegram table (R300) -/

/-- A subscription or sink's running state. -/
def Train.sub (x : Train) (e : Nat) : Subscription := Tbl.get {} x.subs e
/-- Write it. -/
def State.setSub (s : State) (e : Nat) (x : Subscription) : State :=
  { s with train := { s.train with subs := Tbl.set {} s.train.subs e x } }

/-- The entry in effect. -/
def State.telegram (s : State) (e : Nat) : TelEntry := telEntry s.train.table e

/-- An entry's eight words with its fields clamped (R16, R300); an entry of zeros is unused. -/
def clampEntry (ws : List Word) : List Word :=
  let w (i : Nat) : Word := ws.getD i 0
  if (List.range 8).all fun i => w i == 0 then List.replicate 8 0
  else
    let kind := bitsOf (w 0) 17 16
    let k := max 1 (bitsOf (w 5) 11 0)
    [w 0 &&& 0o760_000, w 1, w 2, w 3 &&& 0o077_777,
     word (if kind ≤ 1 then clampTo 1 1432 (bitsOf (w 4) 10 0) else min 4 (bitsOf (w 4) 2 0)), word k,
     word (if kind = 0 then min (k - 1) (bitsOf (w 6) 11 0) else 0), w 7 &&& 0o000_077]

/-- Entries written from one upward. -/
def putEntries (t : Tbl Word) (e : Nat) : Nat → List Word → Tbl Word
  | 0, _ => t
  | n + 1, ws =>
    putEntries (if e < 512 then Tbl.setMany 0 t (8 * e) (clampEntry (ws.take 8)) else t) (e + 1) n (ws.drop 8)

/-- A telegram table's blocks meet no allocation, no system area and not each other (R69, R300). DESIGN CHOICE: a table of more
publications, subscriptions or MVB ports than R298 supports is refused too. -/
def State.tableFits (s : State) (t : Tbl Word) : Bool :=
  let bs := nonEmpty (tableBlocks t)
  let others := nonEmpty (s.stationBlocks ++ s.fieldBlocks ++ s.mailboxBlocks ++ s.channelBlocks)
  let number (p : Nat → Bool) : Nat := ((usedEntries t).filter fun e => p (telEntry t e).kind).length
  decide (number (· == 0) ≤ 256) && decide (number (· == 1) ≤ 256) && decide (number (fun k => decide (2 ≤ k)) ≤ 256) &&
    apart bs && bs.all fun b => !WordRange.meets b (systemArea b.area) && others.all fun o => !WordRange.meets b o

/-- TN_TABLE_SET (R300, R305): writes the settings copy, in effect at the next Start. -/
def execTnTableSet (q : Req) (s : State) : Out :=
  .next (runCommand 8 0o112 2 q s fun s q k cred =>
    let t := putEntries s.train.settings (min 511 q.desc.a0.toNat) (clampTo 1 64 q.desc.a1.toNat) q.data
    if s.tableFits t then (({ s with train := { s.train with settings := t } }).changedBy cred q).complete k .done
    else s.complete k (.refused 8))

/-! ## Receiving (R301, R302, R304, R309) -/

/-- The table entry is served: TRDP or the MVB device is enabled, and PD6 is on. -/
def State.telegramServed (s : State) (x : TelEntry) : Bool :=
  s.domainOn 6 && bitOf s.tnCfg (if x.kind ≤ 1 then 10 else 11)

/-- TELEGRAM_RECEIPT (R302): a telegram complete before T_in waits for the image; an earlier one of the tick is
superseded and counted. DESIGN CHOICE: of a telegram longer than its block the block's part is taken, and LEN counts that part. -/
def execTelegramReceipt (e : Nat) (data : List Nat) (sdtOk : Bool) (s : State) : Out :=
  let x := s.telegram e
  if 511 < e ∨ x.k = 0 ∨ !x.receives ∨ !s.telegramServed x then .next s
  else
    let u := s.train.sub e
    let ws := if x.kind = 1 then octetWords (data.take x.len) else data.map fun w => word (w % 65536)
    let n := if x.kind = 1 then min x.len data.length else min x.dataWords data.length
    .next ((s.setSub e { u with waiting := some (word n :: ws, sdtOk || !x.sdt)
                                superseded := if u.waiting.isSome then u.superseded + 1 else u.superseded }).arrive 0 e)

/-- No telegram for K ticks: TMO, and the data follow TMOB (R301). -/
def Subscription.timeOut (u : Subscription) (x : TelEntry) : Subscription :=
  { u with tmo := true, data := if x.zero then [] else u.data }

/-- SUBSCRIPTION_TIMEOUT (R301): the tick running is the K-th without a telegram. -/
def execSubscriptionTimeout (e : Nat) (s : State) : Out :=
  let x := s.telegram e
  let u := s.train.sub e
  if 511 < e ∨ x.k = 0 ∨ !x.receives ∨ u.tmo ∨ u.waiting.isSome ∨ u.age + 1 < x.k ∨ (x.train ∧ s.train.inaug) then .next s
  else .next (s.setSub e (u.timeOut x))

/-- One subscription at T_in: whether a telegram is taken, and the block's state after it (R301, R302, R309). Words of
the block beyond the telegram's are free values. DESIGN CHOICE: a telegram that fails its SDTv2 check does not restart the
timeout. -/
def Subscription.close (u : Subscription) (x : TelEntry) (inaug : Bool) (free : Nat → Word) : Bool × Subscription :=
  if x.train && inaug then (false, { u with waiting := none, stale := true })
  else
    let age := u.age + 1
    let held := if u.deferred then u.waiting else none
    let quiet := if x.k ≤ age && !u.tmo then ({ u with waiting := held, deferred := false, age := age }).timeOut x
                 else { u with waiting := held, deferred := false, age := age }
    match (if u.deferred then none else u.waiting) with
    | some (h :: ws, true) =>
      let data := (List.range x.dataWords).map fun i => (ws[i]?).getD (free i)
      (true, { u with waiting := none, age := 0, tmo := false, stale := false, sdtErr := false, len := h.toNat, data := data })
    | some (_, false) => (false, { quiet with sdtErr := true })
    | _ => (false, quiet)

/-- The status word of a block (R301). -/
def Subscription.status (u : Subscription) (new : Bool) : Word :=
  word (fieldAt (flagNat new) 17 + fieldAt (flagNat u.tmo) 16 + fieldAt (flagNat u.stale) 15 + fieldAt (flagNat u.sdtErr) 14 + u.len)

/-- Telegrams enter the image at T_in (R302). -/
def State.closeTelegrams (s : State) : State :=
  (usedEntries s.train.table).foldl (fun s e =>
    let x := s.telegram e
    if !x.receives then s
    else
      let (new, u) := (s.train.sub e).close x s.train.inaug fun i => Config.freeWord (s.fresh + i)
      let s1 := { s.setSub e u with fresh := s.fresh + x.dataWords }
      s1.writeFields x.base (u.status new :: fitWords x.dataWords u.data)) s

/-! ## Sending (R303) -/

/-- Publications and source ports send (R303): the lease holder, while outputs follow the output image. -/
def State.sends (s : State) : Bool := s.holds && s.outputsLive

/-- The words of an entry's block in the image last emitted (R301, R303). -/
def State.sentBlock (s : State) (x : TelEntry) : List Word :=
  (List.range x.dataWords).map fun i =>
    let w := Tbl.get 0 s.work.mortar.emitted (x.base + x.dataAt + i)
    if x.kind = 2 then w &&& 0o177_777 else w

/-- The publications due in the tick that begins; those of the last tick still unsent are dropped and counted (R303). -/
def State.duePublications (s : State) : State :=
  let due := if s.sends then (usedEntries s.train.table).filter fun e =>
      let x := s.telegram e
      x.kind == 0 && s.telegramServed x && s.work.count % x.k == x.phase
    else []
  { s with train := { s.train with due := due, dropped := s.train.dropped + s.train.due.length } }

/-- TELEGRAM_PUBLICATION (R303): due telegrams leave in table order, from the lease holder alone. -/
def execTelegramPublication (e : Nat) (s : State) : Out :=
  match s.train.due with
  | d :: rest =>
    if d = e ∧ s.sends ∧ s.telegramServed (s.telegram e) then .next { s with train := { s.train with due := rest, published := some (e, s.sentBlock (s.telegram e)) } }
    else .next s
  | [] => .next s

/-- MVB_MASTER_FRAME (R303): a source port answers with its block of the latest emitted image. -/
def execMvbMasterFrame (port : Nat) (s : State) : Out :=
  let hit := (usedEntries s.train.table).find? fun e =>
    let x := s.telegram e
    x.kind == 2 && x.id % 4096 == port && s.telegramServed x
  match hit with
  | some e => if s.sends then .next { s with train := { s.train with answered := some (e, s.sentBlock (s.telegram e)) } } else .next s
  | none => .next s

/-! ## Message data (R305) -/

/-- MESSAGE_DATA_RECEIPT (R305): a received notify or request goes to the receive ring, one octet per nonet (R11). -/
def execMessageDataReceipt (octets : List Nat) (s : State) : Out :=
  let x := s.train.messages
  if !s.domainOn 6 ∨ !bitOf s.tnCfg 10 then .next s
  else if x.full then .next { s with train := { s.train with messagesLost := s.train.messagesLost + 1 } }
  else .next (({ s with train := { s.train with messages := x.push (octetWords octets) } }).doorbell (s.ring 8).owner 8)

/-- TN_MD_SEND (R305): a notify completes when it is sent, a request waits for its reply. -/
def execTnMdSend (q : Req) (s : State) : Out :=
  .next (runCommand 8 0o110 1 q s fun s q k _ =>
    let id := joinNat q.desc.a1 q.desc.a2 % 2 ^ 32
    let n := clampTo 1 4096 (q.data.getD 0 0).toNat
    let body := (q.data.drop 1).take ((n + 1) / 2)
    if q.desc.a0 = 0 then
      ({ s with train := { s.train with notified := some (id, q.desc.a3.toNat, body) } }).complete k .done
    else
      { s with train := { s.train with requests := s.train.requests ++ [⟨k, id, q.desc.a3.toNat, body⟩] } })

/-- The outstanding request with a tag leaves the list. -/
def State.endRequest (s : State) (tag : Word) (rep : Reply) : State :=
  match s.train.requests.find? fun r => r.ticket.tag == tag with
  | some r => ({ s with train := { s.train with requests := s.train.requests.erase r } }).complete r.ticket rep
  | none => s

/-- MD_REPLY_TIMEOUT (R305): 1 s without a reply. -/
def execMdReplyTimeout (tag : Word) (s : State) : Out := .next (s.endRequest tag { status := stNoresp })

/-- MESSAGE_DATA_REPLY (R305): the reply's octets stand one per nonet (R11). -/
def execMessageDataReply (tag : Word) (octets : List Nat) (s : State) : Out :=
  .next (s.endRequest tag { data := octetWords octets })

/-- TN_TOPO_GET (R305): the train directory, 8 words per consist. -/
def execTnTopoGet (q : Req) (s : State) : Out :=
  .next (runCommand 8 0o111 1 q s fun s _ k _ =>
    s.complete k { data := match s.train.applied with
      | some t => fitWords (8 * min 63 t.consists) t.directory
      | none => [] })

/-! ## Inauguration (R306–R310) -/

/-- The ETBN function is on (R299, R315). -/
def State.etbnOn (s : State) : Bool := s.domainOn 6 && bitOf s.tnCfg 17

/-- The bypass that joins P01 and P02 is closed unless PD6 is up and TN_CFG.ETBN is 1 (R299, R315). -/
def State.bypassClosed (s : State) : Bool := !s.etbnOn

/-- A confirmed topology that has not been applied is superseded, and recorded (R306). -/
def State.supersede (s : State) : State :=
  if s.train.confirmed.isSome then
    ({ s with train := { s.train with confirmed := none } }).event 0o001_401 0 0 s.work.inaugCount 1
  else s

/-- TOPOLOGY_CHANGE (R306): TTDP detects a change at P01 (1) or P02 (2); an inauguration begins. DEDUCED: it supersedes a
topology confirmed and not yet applied. -/
def execTopologyChange (port : Nat) (up : Bool) (s : State) : Out :=
  if !s.etbnOn then .next s
  else
    let s1 := s.supersede
    let x := { s1.train with inaug := true, inaugShown := false
                             etb1 := if port = 1 then up else s.train.etb1
                             etb2 := if port = 2 then up else s.train.etb2 }
    .next (({ s1 with train := x }).event 0o001_400 0 0 port 0)

/-- TOPOLOGY_CONFIRMATION (R306): applied at the next boundary; one superseded before it is only recorded. -/
def execTopologyConfirmation (t : Topology) (s : State) : Out :=
  if !s.etbnOn then .next s
  else
    let s1 := s.supersede
    .next { s1 with train := { s1.train with confirmed := some t } }

/-- A train-level subscription's timeout restarts when a topology is applied; what it received before is not under the new
topology (R309). -/
def State.restartTimeouts (s : State) : State :=
  { s with train := { s.train with subs := Tbl.mapEntries {} (fun e u =>
      if (s.telegram e).train then { u with age := 0, waiting := none } else u) s.train.subs } }

/-- CAR position within its consist, from train direction 1 (R307). -/
def State.carIndex (s : State) (reversed : Bool) : Nat :=
  let cars := max 1 (bitsOf s.tnCar 5 0)
  let idx := clampTo 1 cars (bitsOf s.tnCar 13 8)
  if reversed then cars + 1 - idx else idx

/-- The words of a topology: ORIENT, TVALID, CONS and NCONS; CARPOS and NCARS; the TTDP counter (R307). -/
def State.topoOf (s : State) (t : Topology) : List Word :=
  let orient := t.reversed == bitOf s.tnCar 17
  [word (fieldAt (flagNat orient) 16 + fieldAt 1 15 + fieldAt (clampTo 1 63 t.position) 6 + min 63 t.consists),
   word (fieldAt (min 255 (t.carsBefore + s.carIndex t.reversed)) 8 + min 255 t.cars),
   word (t.counter % 2 ^ 18), word (t.counter / 2 ^ 18 % 2 ^ 14)]

/-- Input words 0o077_060–0o077_064 (R307). -/
def State.topologyWords (s : State) : List Word :=
  let x := s.train
  [word (fieldAt (flagNat x.inaug) 17 + fieldAt (flagNat x.inh) 14) ||| x.topo.getD 0 0, x.topo.getD 1 0,
   word s.work.inaugCount, x.topo.getD 2 0, x.topo.getD 3 0]

/-- At a boundary a confirmed topology is applied; a Keystone in Track takes it once it holds (R306, R310, R317). DEDUCED: the
topology that the holder before had applied, and that the ledger carried here, is no other topology when this Keystone's own ETBN
confirms it. -/
def State.applyTopology (s : State) : State :=
  match s.train.confirmed with
  | none => s
  | some t =>
    if s.md.mode = .track then s
    else if s.train.topoCarried ∧ (s.topoOf t).drop 2 = s.train.topo.drop 2 then
      { s with train := { s.train with confirmed := none, applied := some t, topo := s.topoOf t, topoCarried := false } }
    else
      let n := inc18 s.work.inaugCount
      let s1 := { s with
        work := { s.work with inaugCount := n }
        train := { s.train with confirmed := none, applied := some t, topo := s.topoOf t, topoCarried := false, inaug := false,
                                inaugShown := false } }
      (s1.restartTimeouts).event 0o001_401 0 0 n 0

/-- A tracked standby takes the counter and the topology words, INAUG and STALE from the ledger's image (R309, R310, R317). -/
def State.followTopology (s : State) : State :=
  let w (i : Nat) : Word := Tbl.get 0 s.work.mortar.inputField i
  let inaug := bitOf (w 0o077_060) 17
  let subs := (usedEntries s.train.table).foldl (fun (t : Tbl Subscription) e =>
    let x := s.telegram e
    if x.receives && x.train then Tbl.set {} t e { Tbl.get {} t e with stale := bitOf (w x.base) 15 } else t) s.train.subs
  { s with work := { s.work with inaugCount := (w 0o077_062).toNat }
           train := { s.train with inaug := inaug, inaugShown := inaug, subs := subs, topoCarried := true
                                   topo := [w 0o077_060 &&& 0o307_777, w 0o077_061, w 0o077_063, w 0o077_064] } }

/-- INAUG enters the first image after the detection, with error cause 4 (R306). -/
def State.showInauguration (s : State) : State :=
  if s.train.inaug ∧ !s.train.inaugShown then ({ s with train := { s.train with inaugShown := true } }).raise 4 else s

/-! ## Train time (R311–R314) -/

/-- TN_TSRC.SRC: 3 is taken as 2 (R311). -/
def State.timeSource (s : State) : Nat := min 2 (bitsOf s.tnTsrc 17 16)

/-- Change TSTATE, recorded (R316). -/
def State.setTstate (s : State) (n : Nat) : State :=
  if n = s.train.tstate then s
  else ({ s with train := { s.train with tstate := n, aligned := 0 } }).event 0o001_402 0 0 n s.train.tstate

/-- Offsets within a bound of ns. -/
def near (bound : Nat) (v : Int) : Bool := decide (v.natAbs ≤ bound)

/-- The source is synchronised or has returned: 0 to 1, and 3 to 2 or 1 (R312). -/
def State.sourceBack (s : State) : State :=
  if !s.tick.lock then s
  else match s.train.tstate with
    | 0 => s.setTstate 1
    | 3 => s.setTstate (if near 250 s.train.e then 2 else 1)
    | _ => s

/-- Grandmaster: GMCAP with a PPS on P46 and no PTP master to follow (R311). -/
def State.grandmaster (s : State) : State :=
  { s with train := { s.train with
      gm := s.timeSource == 1 && bitOf s.tnTsrc 15 && s.train.ppsSeen && !s.train.synced } }

/-- A servo offset (R312): beyond ±0.4 µs LOCKED becomes HOLDOVER. -/
def State.servo (s : State) (off : Int) : State :=
  let s1 := { s with train := { s.train with offset := off, synced := true } }
  if s1.train.tstate = 2 ∧ !near 400 off then s1.setTstate 3 else s1.sourceBack

/-- PTP_SYNC (R311). -/
def execPtpSync (off : Int) (s : State) : Out :=
  if !s.domainOn 6 ∨ s.timeSource ≠ 1 then .next s else .next (s.servo off).grandmaster

/-- PPS_IN (R311): an edge on P46; the servo's mark with SRC 2. -/
def execPpsIn (off : Int) (s : State) : Out :=
  if !s.domainOn 6 then .next s
  else
    let s1 := { s with train := { s.train with ppsSeen := true } }
    if s.timeSource = 2 then .next (s1.servo off) else .next s1.grandmaster

/-- TIME_SOURCE_LOSS (R312): the source is lost for 3 sync intervals. -/
def execTimeSourceLoss (s : State) : Out :=
  let s1 := { s with train := { s.train with synced := false, ppsSeen := s.train.ppsSeen && s.timeSource != 2 } }
  .next (if s.train.tstate = 2 then s1.setTstate 3 else s1).grandmaster

/-- PPS_OUT (R314): rises at each second in TSTATE 2, or always with PPSO 1, and falls after 100 ms. -/
def execPpsOut (high : Bool) (s : State) : Out :=
  if !s.domainOn 6 then .next s
  else .next { s with train := { s.train with ppsOut := high && (s.train.tstate == 2 || bitOf s.tnTsrc 14) } }

/-- The correction of a tick in LOCKED: at most ±0.25 µs; how much is a free value (R312). -/
def State.correction (s : State) : Int := (Config.freeWord s.fresh).toNat % 501 - 250

/-- The length in ns of the tick that begins, by TSTATE (R312): ACQUIRE lengthens it by at most P/500 towards the next aligned
instant. -/
def State.tickLength (s : State) : State :=
  let p : Int := s.tick.period * 1000
  let x := s.train
  match x.tstate with
  | 1 => { s with train := { x with length := p + min (p / 500) (if x.e ≤ 0 then -x.e else p - x.e) } }
  | 2 => { s with train := { x with length := p + s.correction, rate := s.correction }, fresh := s.fresh + 1 }
  | 3 => { s with train := { x with length := p + x.rate } }
  | _ => { s with train := { x with length := p } }

/-- Tick alignment at a boundary (R312): e is measured, and ACQUIRE ends after 16 consecutive ticks near the aligned
instants. A Keystone in Track follows the holder and aligns no tick (R313). -/
def State.alignTick (s : State) (e : Int) : State :=
  let n := if near 250 e then s.train.aligned + 1 else 0
  let s1 := { s with train := { s.train with e := e, aligned := n } }
  if s.md.mode = .track then s1
  else if !s.tick.lock then s1.setTstate 0
  else if s1.train.tstate = 1 ∧ 16 ≤ n ∧ near 250 s1.train.offset then s1.setTstate 2
  else if s1.train.tstate = 0 ∧ s1.train.synced then s1.setTstate 1
  else s1

/-- Boundaries are locked to train time (R312). -/
def State.locked (s : State) : Bool := s.train.tstate == 2

/-! ## The boundary and Start -/

/-- What a boundary does on the train networks, after the output image has been emitted (R303, R306, R308, R312). -/
def State.trainBoundary (s : State) (e : Int) : State :=
  let s1 := (s.applyTopology.alignTick e).tickLength
  let inh := s1.sends && s1.etbnOn && bitOf (Tbl.get 0 s1.work.mortar.emitted 0o077_021) 0
  ({ s1 with train := { s1.train with inh := inh } }).duePublications

/-- The train networks at a start: the table loaded from the settings, no topology applied (R300, R307). -/
def State.trainStart (s : State) : State :=
  { s with train := { (default_ : Train) with table := s.train.settings, settings := s.train.settings,
                                              messages := s.train.messages } }
where
  /-- Everything at its value at reset. -/
  default_ : Train := {}

/-! ## Registers and events of R315, R316 -/

/-- MRPS (R315). -/
def State.mrps (s : State) : Nat :=
  if !s.domainOn 6 ∨ bitsOf s.tnCfg 15 14 = 0 then 0 else s.train.mrp

/-- MRP_RING_STATE_CHANGE (R316). -/
def execMrpRingStateChange (closed : Bool) (s : State) : Out :=
  if !s.domainOn 6 ∨ bitsOf s.tnCfg 15 14 = 0 then .next s
  else
    let s1 := { s with train := { s.train with mrp := if closed then 1 else 2 } }
    .next (s1.event 0o001_403 0 0 s1.mrps 0)

/-- MVB_LINE_SWITCHOVER (R316). -/
def execMvbLineSwitchover (lineB : Bool) (s : State) : Out :=
  if !s.domainOn 6 ∨ !bitOf s.tnCfg 11 then .next s
  else .next (({ s with train := { s.train with mvbLineB := lineB } }).event 0o001_404 0 0 (flagNat lineB) 0)

/-- A train-network register as read (R315). -/
def State.readTrain (s : State) (idx : Nat) : Word :=
  let x := s.train
  if idx = 0o010_000 then s.setupOr idx 0o452_000
  else if idx = 0o010_001 then s.setupOr idx 0o000_401
  else if idx = 0o010_002 then s.setupOr idx 0o200_377
  else if idx = 0o010_003 then
    word (fieldAt x.tstate 16 + fieldAt (flagNat x.inaug) 15 + fieldAt (flagNat x.inh) 14 + fieldAt (flagNat x.etb1) 13 +
      fieldAt (flagNat x.etb2) 12 + fieldAt s.mrps 10 + fieldAt (flagNat x.mvbLineB) 9 +
      fieldAt (flagNat (s.domainOn 6 && bitOf s.tnCfg 11)) 8 + fieldAt (flagNat x.gm) 7)
  else if idx = 0o010_004 then word (saturate18 x.offset)
  else if idx = 0o010_005 then word s.work.inaugCount
  else if idx = 0o010_006 then s.setupOr idx 1
  else 0

/-- A write to a train-network register: the rules of R45, in effect at the next Start (R315). -/
def State.writeTrain (s : State) (w : Writer) (idx : Nat) (v : Word) : State :=
  if idx = 0o010_000 then
    s.writeInStop w idx (word (fieldAt (bitsOf v 17 16) 16 + fieldAt (min 2 (bitsOf v 15 14)) 14 + fieldAt (bitsOf v 13 10) 10 +
      bitsOf v 6 0))
  else if idx = 0o010_001 then
    let cars := max 1 (bitsOf v 5 0)
    s.writeInStop w idx (word (fieldAt (bitsOf v 17 17) 17 + fieldAt (clampTo 1 cars (bitsOf v 13 8)) 8 + cars))
  else if idx = 0o010_002 then
    s.writeInStop w idx (word (fieldAt (min 2 (bitsOf v 17 16)) 16 + fieldAt (bitsOf v 15 14) 14 + bitsOf v 7 0))
  else if idx = 0o010_006 then s.writeInStop w idx (word (max 1 (bitsOf v 11 0)))
  else s

end Sys2Proof.Machine
end

