-- ==== Sys2Proof/Machine/CanSerial.lean ====
section
/-!
DEFINITION. The CAN and serial channels (R318–R335): transmission, reception into the receive rings and the
image, fault confinement, and their registers.
-/

namespace Sys2Proof.Machine

/-! ## Units -/

/-- CAN channel `c`. -/
def State.can (s : State) (c : Nat) : Can := Tbl.get {} s.cans c
/-- Write CAN channel `c`. -/
def State.setCan (s : State) (c : Nat) (x : Can) : State := { s with cans := Tbl.set {} s.cans c x }
/-- Serial channel `c`. -/
def State.serial (s : State) (c : Nat) : Serial := Tbl.get {} s.serials c
/-- Write serial channel `c`. -/
def State.setSerial (s : State) (c : Nat) (x : Serial) : State := { s with serials := Tbl.set {} s.serials c x }

/-- CN_CFG fields. -/
def State.canEn (s : State) (c : Nat) : Bool := bitOf (s.cnCfg c) 17
/-- FDEN. -/
def State.canFd (s : State) (c : Nat) : Bool := bitOf (s.cnCfg c) 16
/-- TXORD. -/
def State.canTurns (s : State) (c : Nat) : Bool := bitOf (s.cnCfg c) 15
/-- AUTOREC. -/
def State.canAutoRec (s : State) (c : Nat) : Bool := bitOf (s.cnCfg c) 14
/-- LISTEN. -/
def State.canListen (s : State) (c : Nat) : Bool := bitOf (s.cnCfg c) 12
/-- EN of a serial channel. -/
def State.serEn (s : State) (c : Nat) : Bool := bitOf (s.srCfg c) 17
/-- A CAN channel runs: it is enabled, and PD7 is on. -/
def State.canRuns (s : State) (c : Nat) : Bool := s.canEn c && s.domainOn 7
/-- A serial channel runs. -/
def State.serRuns (s : State) (c : Nat) : Bool := s.serEn c && s.domainOn 7

/-! ## Bit timing (R319, R329) -/

/-- A CAN bit in periods of 12.5 ns, and where in it the sample point lies, from BRP, TSEG1 and TSEG2 as registers hold them: one
less than their values (R319). -/
def bitTiming (brp tseg1 tseg2 : Nat) : Nat × Nat := ((brp + 1) * (1 + (tseg1 + 1) + (tseg2 + 1)), (brp + 1) * (1 + (tseg1 + 1)))

/-- The nominal bit of a CAN channel. -/
def State.nominalBit (s : State) (c : Nat) : Nat × Nat :=
  let a := s.setupOr (0o010_401 + 16 * c) 0o037_001
  let b := s.setupOr (0o010_402 + 16 * c) 0o003_617
  bitTiming (bitsOf a 7 0) (bitsOf a 15 8) (bitsOf b 6 0)

/-- The data bit of a CAN channel; with TDCEN it is sampled at the measured transmitter delay plus TDCO periods (R319). -/
def State.dataBit (s : State) (c delay : Nat) : Nat × Nat :=
  let a := s.setupOr (0o010_403 + 16 * c) 0o463_600
  let t := s.setupOr (0o010_404 + 16 * c) 0o400_036
  let x := bitTiming (bitsOf a 4 0) (bitsOf a 9 5) (bitsOf a 13 10)
  if bitOf t 17 then (x.1, delay + bitsOf t 6 0) else x

/-- The bit time of a serial channel in ns (R329). -/
def State.serialBit (s : State) (c : Nat) : Nat := 100 * max 5 (s.setupOr (0o011_001 + 16 * c) 0o002_022).toNat

/-- Status BUSOFF of a CAN completion (R322). -/
def stBusoff : Nat := 6
/-- Status NOTSENT of a CAN completion (R322). -/
def stNotsent : Nat := 7

/-! ## Transmit buffers (R320) -/

/-- The frame in a transmit buffer. -/
def Can.buffer (x : Can) (b : Nat) : Option CanTx := Tbl.get none x.buffers b
/-- Put a frame into a transmit buffer, or empty it. -/
def Can.setBuffer (x : Can) (b : Nat) (f : Option CanTx) : Can := { x with buffers := Tbl.set none x.buffers b f }

/-- Load pending frames: into any free buffer, or under TXORD 1 into the buffers in turn (R320). -/
def Can.load (turns : Bool) : Nat → Can → Can
  | 0, x => x
  | fuel + 1, x =>
    match x.pending with
    | [] => x
    | f :: rest =>
      let slot := if turns then (if (x.buffer x.loadTurn).isNone then some x.loadTurn else none)
                  else (List.range 3).find? fun b => (x.buffer b).isNone
      match slot with
      | none => x
      | some b =>
        Can.load turns fuel { x.setBuffer b (some f) with pending := rest, loadTurn := if turns then (b + 1) % 3 else x.loadTurn }

/-- The arbitration field of a frame as it stands on the bus, lowest value winning: the 11 base bits, RTR or SRR, IDE,
the 18 extension bits and the extended RTR. -/
def CanTx.key (f : CanTx) : Nat :=
  let r := flagNat f.rtr
  if f.ide then f.id / 2 ^ 18 * 2 ^ 21 + 2 ^ 20 + 2 ^ 19 + f.id % 2 ^ 18 * 2 + r
  else f.id * 2 ^ 21 + r * 2 ^ 20

/-- The buffer whose frame wins arbitration first, the lower number among equals (R320). -/
def Can.winner (x : Can) : Option Nat :=
  (List.range 3).foldl (fun best b =>
    match x.buffer b, best.bind fun c => (x.buffer c).map fun g => (c, g.key) with
    | some f, some (c, k) => if f.key < k then some b else some c
    | some _, none => some b
    | none, _ => best) none

/-- Choose the frame to send next (R320). -/
def Can.choose (turns : Bool) (x : Can) : Can :=
  if x.sending.isSome ∨ x.state = 2 then x
  else if turns then
    (if (x.buffer x.sendTurn).isSome then { x with sending := some x.sendTurn } else x)
  else { x with sending := x.winner }

/-- Load and choose. -/
def State.driveCan (s : State) (c : Nat) : State :=
  let t := s.canTurns c
  s.setCan c ((Can.load t 3 (s.can c)).choose t)

/-- A buffer is free again; under TXORD 1 the turn passes on. -/
def Can.free (x : Can) (b : Nat) : Can := { x.setBuffer b none with sending := none, sendTurn := (b + 1) % 3 }

/-! ## Delivery (R324, R325) -/

/-- An entry of 40 words (R325): kind, the e0 flags below it, ID words, LEN, the stamp and the data. -/
def rxEntry (kind c flags : Nat) (id0 id1 : Word) (len tick off : Nat) (data : List Word) : List Word :=
  [word (fieldAt kind 15 + fieldAt c 12 + flags), id0, id1, word len, lowWord tick, highWord tick, lowWord off, highWord off] ++
    fitWords 32 data

/-- An entry with PHASE set in e0. -/
def withPhase (p : Bool) : List Word → List Word
  | [] => []
  | w :: ws => (if p then w ||| 0o400_000 else w) :: ws

/-- Write an entry to the CAN receive ring if it has room. -/
def State.pushCan (s : State) (e : List Word) : State :=
  ({ s with canRx := s.canRx.push (withPhase s.canRx.phase e) }).doorbell (s.ring 2).owner 2

/-- Deliver an entry to the CAN receive ring: lost entries are counted and told of by an event of code 6 before the next
entry (R324, R325). -/
def State.ringCan (s : State) (c : Nat) (e : List Word) (off : Nat) : State :=
  let x := s.can c
  let s1 := if x.unreported = 0 ∨ s.canRx.full then s
    else (s.setCan c { x with unreported := 0 }).pushCan (rxEntry 2 c 0 6 (word x.unreported) 0 s.tickNumber off [])
  let y := s1.can c
  if s1.canRx.full then s1.setCan c { y with lostRing := (y.lostRing + 1) % 512, unreported := y.unreported + 1 }
  else s1.pushCan e

/-- Deliver an entry to a channel's image queue of 256 entries (R324). -/
def State.queueCan (s : State) (c : Nat) (e : List Word) : State :=
  let x := s.can c
  if !s.cnImgOn c then s
  else if 256 ≤ x.queue.length then s.setCan c { x with overflow := true, lostImg := (x.lostImg + 1) % 512 }
  else (s.setCan c { x with queue := x.queue ++ [e] }).arrive 1 c

/-- A stamped frame goes to both paths (R324). -/
def State.deliverCan (s : State) (c : Nat) (e : List Word) (off : Nat) : State := (s.ringCan c e off).queueCan c e

/-- An event entry (R325): on the ring only. -/
def State.canEvent (s : State) (c code off : Nat) : State :=
  let x := s.can c
  s.ringCan c (rxEntry 2 c 0 (word code) (word (fieldAt x.tec 9 + x.rec_)) 0 s.tickNumber off []) off

/-! ## Fault confinement (R318, R327) -/

/-- New error counts and what they reach: warning at 96, error-passive above 127, error-active again (R318, R325). -/
def State.canCounts (s : State) (c tec rec' off : Nat) : State :=
  let x := s.can c
  let warned := decide (96 ≤ x.tec) || decide (96 ≤ x.rec_)
  let warns := decide (96 ≤ tec) || decide (96 ≤ rec')
  let passive := decide (127 < tec) || decide (127 < rec')
  let state := if x.state = 2 then 2 else flagNat passive
  let s1 := s.setCan c { x with tec := min 511 tec, rec_ := min 511 rec', state := state }
  let s2 := if warns && !warned then s1.canEvent c 1 off else s1
  if x.state = 0 ∧ state = 1 then s2.canEvent c 2 off
  else if x.state = 1 ∧ state = 0 then s2.canEvent c 5 off
  else s2

/-- CAN_BUS_ERROR (R318): an error raises TEC or REC by the step that ISO 11898-1 gives for it. -/
def execCanBusError (c : Nat) (tx : Bool) (step off : Nat) (s : State) : Out :=
  let x := s.can c
  if 7 < c ∨ !s.canRuns c ∨ x.state = 2 then .next s
  else if tx then .next (s.canCounts c (x.tec + step) x.rec_ off)
  else .next (s.canCounts c x.tec (x.rec_ + step) off)

/-- The tickets of every loaded frame, with its buffer, then of every pending one. -/
def Can.frames (x : Can) : List (CanTx × Nat) :=
  ((List.range 3).filterMap fun b => (x.buffer b).map fun f => (f, b)) ++ x.pending.map fun f => (f, 0)

/-- Complete frames alike. -/
def State.completeFrames (s : State) (status : Nat) : List (CanTx × Nat) → State
  | [] => s
  | (f, b) :: rest =>
    (s.complete f.ticket { status := status, detail := b, len := some f.words.length }).completeFrames status rest

/-- BUS_OFF (R327): every loaded and pending frame completes BUSOFF; with AUTOREC recovery begins. -/
def execBusOff (c off : Nat) (s : State) : Out :=
  let x := s.can c
  if 7 < c ∨ !s.canRuns c ∨ x.state = 2 then .next s
  else
    let y := { x with state := 2, tec := max 256 x.tec, pending := [], buffers := [], sending := none, loadTurn := 0,
                      sendTurn := 0, recovering := s.canAutoRec c }
    .next (((s.setCan c y).completeFrames stBusoff x.frames).canEvent c 3 off)

/-- CAN_RECOVER (R327). -/
def execCanRecover (q : Req) (s : State) : Out :=
  .next (runCommand 2 0o122 1 q s fun s q k _ =>
    let c := bitsOf q.desc.a0 2 0
    let x := s.can c
    (if x.state = 2 then s.setCan c { x with recovering := true } else s).complete k .done)

/-- BUS_OFF_RECOVERED (R327): 128 occurrences of 11 recessive bits. -/
def execBusOffRecovered (c off : Nat) (s : State) : Out :=
  let x := s.can c
  if 7 < c ∨ !s.canRuns c ∨ x.state ≠ 2 ∨ !x.recovering then .next s
  else .next ((s.setCan c { x with state := 0, tec := 0, rec_ := 0, recovering := false }).canEvent c 4 off)

/-! ## Transmission (R320–R322) -/

/-- Octets of a DLC (R320, R333). -/
def dlcOctets (fdf : Bool) (dlc : Nat) : Nat :=
  if dlc ≤ 8 then dlc
  else if !fdf then 8
  else match dlc with | 9 => 12 | 10 => 16 | 11 => 20 | 12 => 24 | 13 => 32 | 14 => 48 | _ => 64

/-- The frame a CAN_TX asks for, its arguments resolved (R333). DESIGN CHOICE: a channel with FDEN 0, a classical node (R318),
sends a frame asked for with FDF as a classical one. -/
def canTxOf (fd : Bool) (k : Ticket) (d : Desc) (data : List Word) : CanTx :=
  let a := d.a0
  let fdf := bitOf a 5 && fd
  let rtr := bitOf a 4 && !fdf
  let dlc := bitsOf a 11 8
  let n := if rtr then 0 else (dlcOctets fdf dlc + 1) / 2
  { ticket := k, ide := bitOf a 3, rtr := rtr, fdf := fdf, brs := bitOf a 6 && fdf, oneshot := bitOf a 7, echo := bitOf a 12,
    dlc := dlc, id := min (if bitOf a 3 then 2 ^ 29 - 1 else 2047) (joinNat d.a1 d.a2), words := fitWords n data }

/-- CAN_TX (R320, R322, R327, R328): waits while the channel's pending queue holds 16. -/
def execCanTx (q : Req) (s : State) : Out :=
  let c := bitsOf q.desc.a0 2 0
  if 16 ≤ (s.can c).pending.length then .next s
  else .next (runCommand 2 0o120 1 q s fun s q k _ =>
    let x := s.can c
    if !s.canRuns c ∨ s.canListen c ∨ s.md.mode = .track then s.complete k (.refused 0)
    else if x.state = 2 then s.complete k { status := stBusoff }
    else (s.setCan c { x with pending := x.pending ++ [canTxOf (s.canFd c) k q.desc q.data] }).driveCan c)

/-- Abort a channel (R322): the frame on the bus runs to its end of frame, every other completes ABORTED. -/
def State.abortCan (s : State) (c : Nat) : State :=
  let x := s.can c
  match x.sending with
  | some b =>
    let others := Can.frames { x.setBuffer b none with pending := x.pending }
    let y := { x with pending := [], loadTurn := (b + 1) % 3,
                      buffers := Tbl.set none [] b ((x.buffer b).map fun f => { f with aborting := true }) }
    (s.setCan c y).completeFrames stAborted others
  | none =>
    (s.setCan c { x with pending := [], buffers := [], sendTurn := x.loadTurn }).completeFrames stAborted x.frames

/-- CAN_ABORT (R322). -/
def execCanAbort (q : Req) (s : State) : Out :=
  .next (runCommand 2 0o121 1 q s fun s q k _ => (s.abortCan (bitsOf q.desc.a0 2 0)).complete k .done)

/-- The octets of a frame's words. -/
def octetsOf : List Word → List Nat
  | [] => []
  | w :: ws => bitsOf w 7 0 :: bitsOf w 16 9 :: octetsOf ws

/-- The entry of an own frame received with ECHO (R324). -/
def State.echoEntry (s : State) (c : Nat) (f : CanTx) (off : Nat) : List Word :=
  let n := if f.rtr then 0 else dlcOctets f.fdf f.dlc
  rxEntry 1 c (fieldAt (flagNat f.ide) 11 + fieldAt (flagNat f.rtr) 10 + fieldAt (flagNat f.fdf) 9 + fieldAt (flagNat f.brs) 8 + f.dlc)
    (lowWord f.id) (highWord f.id) n s.tickNumber off (octetWords ((octetsOf f.words).take n))

/-- CAN_FRAME_SENT (R321, R322): the frame on the bus ends, valid for transmitters or not. -/
def execCanFrameSent (c : Nat) (ok : Bool) (off : Nat) (s : State) : Out :=
  let x := s.can c
  match if 7 < c then none else x.sending.bind fun b => (x.buffer b).map fun f => (b, f) with
  | none => .next s
  | some (b, f) =>
    let status := if f.aborting then stAborted else if ok then stDone else stNotsent
    let detail := b + (if f.aborting && ok then 2 ^ 11 else 0)
    if ok || f.aborting || f.oneshot then
      let s1 := (s.setCan c (x.free b)).complete f.ticket { status := status, detail := detail, len := some f.words.length }
      let s2 := if ok then s1.canCounts c (x.tec - 1) x.rec_ off else s1
      let s3 := if ok && f.echo then s2.deliverCan c (s2.echoEntry c f off) off else s2
      .next (s3.driveCan c)
    else .next ((s.setCan c { x with sending := none }).driveCan c)

/-! ## Reception (R324) -/

/-- The error count after a frame received without error: above 127 it becomes a free value from 119 to 127, as
ISO 11898-1 allows. -/
def recAfter (free : Word) (n : Nat) : Nat := if 127 < n then 119 + free.toNat % 9 else n - 1

/-- CAN_FRAME_RECEIVED (R318, R324): stamped and delivered; a channel with FDEN 0 answers an FD frame with an error frame, in LISTEN
mode with none. What the error adds to REC comes with CAN_BUS_ERROR. -/
def execCanFrameReceived (c : Nat) (f : CanFrame) (off : Nat) (s : State) : Out :=
  let x := s.can c
  if 7 < c ∨ !s.canRuns c ∨ x.state = 2 then .next s
  else if f.fdf ∧ !s.canFd c then
    .next (if s.canListen c then s else s.setCan c { x with errorFrames := x.errorFrames + 1 })
  else
    let octets := if f.rtr then [] else f.octets.take 64
    let flags := fieldAt (flagNat f.ide) 11 + fieldAt (flagNat f.rtr) 10 + fieldAt (flagNat f.fdf) 9 +
      fieldAt (flagNat f.brs) 8 + fieldAt (flagNat f.esi) 7 + f.dlc % 16
    let id := f.id % 2 ^ 29
    let e := rxEntry 0 c flags (lowWord id) (highWord id) octets.length s.tickNumber off (octetWords octets)
    let s1 := { s.canCounts c x.tec (recAfter (Config.freeWord s.fresh) x.rec_) off with fresh := s.fresh + 1 }
    .next (s1.deliverCan c e off)

/-- The words of an image entry of a given length, TRUNC set when the data exceed it (R325). -/
def imageEntry (n : Nat) (e : List Word) : List Word :=
  let len := (e.getD 3 0).toNat
  match e.take n with
  | h :: rest => (if 2 * (n - 8) < len then h ||| 0o000_100 else h) :: rest
  | [] => []

/-- An entry's stamp falls before T_in of the current tick (R326). -/
def State.beforeTin (s : State) (e : List Word) : Bool :=
  let tick := joinNat (e.getD 4 0) (e.getD 5 0)
  tick != s.tickNumber || decide (joinNat (e.getD 6 0) (e.getD 7 0) < 80 * s.tick.inwin)

/-- One CAN channel's image block at T_in (R326). -/
def State.closeCan (s : State) (c : Nat) : State :=
  if !s.cnImgOn c then s
  else
    let x := s.can c
    let n := s.cnEntries c
    let len := s.cnEntryWords c
    let es := (x.queue.takeWhile s.beforeTin).take (min n (x.admitted.getD n))
    let rest := x.queue.drop es.length
    let status := word (fieldAt (flagNat (!es.isEmpty)) 17 + fieldAt (flagNat x.overflow) 16 + fieldAt (flagNat (!rest.isEmpty)) 15 +
      fieldAt x.state 13 + es.length)
    (s.setCan c { x with queue := rest, overflow := false, admitted := none }).writeFields (s.cnImgBase c)
      (status :: fitWords (n * len) (es.flatMap fun e => imageEntry len e))

/-! ## Serial (R329–R332) -/

/-- BITS: 7, 8 or 9 data bits; 3 is taken as 2. -/
def State.serBits (s : State) (c : Nat) : Nat := 7 + min 2 (bitsOf (s.srCfg c) 16 15)

/-- Characters of a number of bits as words: whole nonets in 9-bit mode, else with bit 8 on the last character of the frame
(R330). -/
def charWords (bits : Nat) (l : List Nat) : List Word :=
  let cs := l.map fun x => x % 2 ^ bits
  if bits = 9 then packNonets cs else octetWords cs

/-- e0 flags of a received serial frame (R331). -/
def serialFlags (f : SerialFrame) : Nat :=
  fieldAt (flagNat f.ferr) 11 + fieldAt (flagNat f.perr) 10 + fieldAt (flagNat f.brk) 9 + fieldAt (flagNat f.more) 8

/-- The ring entries of a frame: 64 characters each (R331). -/
def serialEntries (kind c flags tick off : Nat) (words : List Word) (n : Nat) : List (List Word) :=
  (List.range ((n + 63) / 64)).map fun i =>
    let k := min 64 (n - 64 * i)
    rxEntry kind c flags (word k) (word (64 * i)) k tick off ((words.drop (32 * i)).take ((k + 1) / 2))

/-- Write one entry to the serial receive ring, or count it lost. -/
def State.ringSerial (s : State) (c : Nat) (e : List Word) : State :=
  if s.serialRx.full then
    let x := s.serial c
    s.setSerial c { x with lostRing := (x.lostRing + 1) % 512 }
  else ({ s with serialRx := s.serialRx.push (withPhase s.serialRx.phase e) }).doorbell (s.ring 3).owner 3

/-- A received frame goes to the ring and to the image queue (R324, R331). DESIGN CHOICE: e3 of a frame in the image holds its
characters modulo 128. -/
def State.deliverSerial (s : State) (c kind flags : Nat) (chars : List Nat) (off : Nat) : State :=
  let l := chars.take 511
  let ws := charWords (s.serBits c) l
  let s1 := (serialEntries kind c flags s.tickNumber off ws l.length).foldl (fun s e => s.ringSerial c e) s
  let x := s1.serial c
  if !s1.srImgOn c then s1
  else if 256 ≤ x.queue.length then s1.setSerial c { x with overflow := true, lostImg := (x.lostImg + 1) % 512 }
  else
    let head := (rxEntry kind c flags (word l.length) 0 (l.length % 128) s1.tickNumber off []).take 8
    (s1.setSerial c { x with queue := x.queue ++ [head ++ ws] }).arrive 2 c

/-- SERIAL_FRAME_RECEIVED (R331). -/
def execSerialFrameReceived (c : Nat) (f : SerialFrame) (off : Nat) (s : State) : Out :=
  if 7 < c ∨ !s.serRuns c then .next s
  else
    let x := s.serial c
    let s1 := s.setSerial c { x with ferr := x.ferr || f.ferr, perr := x.perr || f.perr, brk := x.brk || f.brk }
    .next (s1.deliverSerial c 0 (serialFlags f) f.chars off)

/-- SER_TX (R328, R332, R333). -/
def execSerTx (q : Req) (s : State) : Out :=
  .next (runCommand 3 0o130 1 q s fun s q k _ =>
    let c := bitsOf q.desc.a0 2 0
    let n := clampTo 1 511 q.desc.a1.toNat
    let x := s.serial c
    let t : SerTx := { ticket := k, echo := bitOf q.desc.a0 3, count := n, words := fitWords ((n + 1) / 2) q.data }
    if !s.serRuns c ∨ s.md.mode = .track then s.complete k (.refused 0)
    else match x.active with
      | none => s.setSerial c { x with active := some t }
      | some _ => s.setSerial c { x with pending := x.pending ++ [t] })

/-- The characters of words, as sent: bit 8 is ignored but in 9-bit mode (R330). -/
def charsOf (bits : Nat) : List Word → List Nat
  | [] => []
  | w :: ws => bitsOf w 8 0 % 2 ^ bits :: bitsOf w 17 9 % 2 ^ bits :: charsOf bits ws

/-- SERIAL_TX_DONE (R332): the driver is disabled; `sent` is less than the count only for a stopped transmission. DEDUCED: LEN
counts a word as soon as its first character has been sent. -/
def execSerialTxDone (c sent off : Nat) (s : State) : Out :=
  let x := s.serial c
  match if 7 < c then none else x.active with
  | none => .next s
  | some t =>
    let n := if t.aborting then min sent t.count else t.count
    let y := { x with active := x.pending.head?, pending := x.pending.drop 1 }
    let s1 := (s.setSerial c y).complete t.ticket
      { status := if t.aborting then stAborted else stDone, len := some ((n + 1) / 2) }
    if t.echo ∧ 0 < n then
      .next (s1.deliverSerial c 1 0 ((charsOf (s1.serBits c) t.words).take n) off)
    else .next s1

/-- Abort a serial channel (R332): waiting transmissions complete ABORTED, the running one stops at the next character
boundary. -/
def State.abortSerial (s : State) (c : Nat) : State :=
  let x := s.serial c
  (s.setSerial c { x with pending := [], active := x.active.map fun t => { t with aborting := true } }).completeAll
    { status := stAborted, len := some 0 } (x.pending.map fun t => t.ticket)

/-- SER_ABORT (R332). -/
def execSerAbort (q : Req) (s : State) : Out :=
  .next (runCommand 3 0o131 1 q s fun s q k _ => (s.abortSerial (bitsOf q.desc.a0 2 0)).complete k .done)

/-- Whole frames packed into a block of `room` words (R331). -/
def packFrames : Nat → List (List Word) → List (List Word)
  | _, [] => []
  | room, f :: fs => if f.length ≤ room then f :: packFrames (room - f.length) fs else []

/-- A channel's frames end before Track is entered or PD7 goes off (R328). DESIGN CHOICE: the spec names no outcome for frames that
wait then; they complete ABORTED, as CAN_ABORT and SER_ABORT would end them. -/
def State.abortChannels (s : State) : State := (List.range 8).foldl (fun (s : State) c => (s.abortCan c).abortSerial c) s

/-- One serial channel's image block at T_in (R331). DEDUCED: the words used count the status word. -/
def State.closeSerial (s : State) (c : Nat) : State :=
  if !s.srImgOn c then s
  else
    let x := s.serial c
    let size := s.srSize c
    let ready := x.queue.takeWhile s.beforeTin
    let fs := packFrames (size - 1) (ready.take (x.admitted.getD ready.length))
    let rest := x.queue.drop fs.length
    let ws := fs.flatMap id
    let status := word (fieldAt (flagNat (!fs.isEmpty)) 17 + fieldAt (flagNat x.overflow) 16 + fieldAt (flagNat (!rest.isEmpty)) 15 +
      1 + ws.length)
    (s.setSerial c { x with queue := rest, overflow := false, admitted := none }).writeFields (s.srImgBase c) (status :: fitWords (size - 1) ws)

/-- CAN and serial blocks of image n (R326, R331). -/
def State.closeChannels (s : State) : State :=
  (List.range 8).foldl (fun s c => (s.closeCan c).closeSerial c) s

/-! ## Registers (R334) -/

/-- Clear EN of a channel's configuration after aborting it (R334). -/
def State.disableChannel (s : State) (serial : Bool) (c : Nat) : State :=
  if serial then (s.abortSerial c).putSetup (0o011_000 + 16 * c) (s.srCfg c &&& 0o377_777)
  else (s.abortCan c).putSetup (0o010_400 + 16 * c) (s.cnCfg c &&& 0o377_777)

/-- CHANNEL_DISABLE (R334): a write of EN = 0. -/
def execChannelDisable (m : Nat) (session : Option Nat) (serial : Bool) (c : Nat) (s : State) : Out :=
  let w := s.writer m session
  let en := if serial then s.serEn c else s.canEn c
  if 7 < c ∨ !s.reaches m then .next s
  else if w.right < 2 then .next (s.refuse w)
  else if !en then .next s
  else .next ((s.disableChannel serial c).changed w.cred (if serial then 0o011_000 + 16 * c else 0o010_400 + 16 * c) 0 m)

/-- The value a CAN register keeps of a write (R16, R319, R334). -/
def State.canValue (s : State) (c w : Nat) (v : Word) : Word :=
  match w with
  | 0 => v &&& 0o770_000
  | 1 => word (fieldAt (max 1 (bitsOf v 15 8)) 8 + bitsOf v 7 0)
  | 2 => word (fieldAt (min (bitsOf v 13 7) (bitsOf v 6 0)) 7 + bitsOf v 6 0)
  | 3 => word (fieldAt (min (bitsOf v 17 14) (bitsOf v 13 10)) 14 + bitsOf v 13 0)
  | 4 => v &&& 0o400_177
  | 5 => v &&& 0o077_777
  | 6 => word (fieldAt (bitsOf v 17 16) 16 + max 1 (bitsOf v 3 0))
  | _ => s.setupOr (0o010_400 + 16 * c + w) 0

/-- The value a serial register keeps of a write (R329, R334). -/
def serialValue (w : Nat) (v : Word) : Word :=
  match w with
  | 0 => word (fieldAt (bitsOf v 17 17) 17 + fieldAt (min 2 (bitsOf v 16 15)) 15 + fieldAt (min 2 (bitsOf v 14 13)) 13 +
      fieldAt (bitsOf v 12 10) 10 + max 3 (bitsOf v 7 0))
  | 1 => word (max 5 v.toNat)
  | 2 => v &&& 0o000_377
  | 3 => v &&& 0o077_777
  | _ => word (fieldAt (bitsOf v 17 17) 17 + clampTo 8 1024 (bitsOf v 10 0))

/-- Reset values of the CAN registers (R334). -/
def canReset (w : Nat) : Word :=
  match w with
  | 0 => 0o240_000 | 1 => 0o037_001 | 2 => 0o003_617 | 3 => 0o463_600 | 4 => 0o400_036 | 6 => 0o000_004 | _ => 0

/-- Reset values of the serial registers (R334). -/
def serialReset (w : Nat) : Word :=
  match w with | 0 => 0o100_007 | 1 => 0o002_022 | 2 => 0o000_021 | 4 => 0o000_100 | _ => 0

/-- A channel register written in any mode with installer rights; while EN is 1 only EN may change (R334). -/
def State.writeChannel (s : State) (wr : Writer) (serial : Bool) (c w idx : Nat) (v kept : Word) : State :=
  let cur := s.setupOr idx (if serial then serialReset w else canReset w)
  let en := if serial then s.serEn c else s.canEn c
  if wr.right < 2 then s.refuse wr
  else if !en then s.takeSetup wr idx kept
  else if w ≠ 0 then (if kept = cur then s else s.ignore)
  else
    let s1 := if bitOf v 17 then s else (s.disableChannel serial c).changed wr.cred idx v.toNat wr.m
    if kept &&& 0o377_777 = cur &&& 0o377_777 then s1 else s1.ignore

/-- The set-up registers of a receive ring: bases and LOG2S only while the ring's EN is 0, as RG_CB0 and RG_CB1 (R281, R334). -/
def State.writeRx (s : State) (wr : Writer) (k : RxRing) (x : RxRingState) (w : Nat) (v : Word) : State :=
  let g := s.ring (rxOwner k)
  let put (y : RxRingState) : State := match k with
    | .can => { s with canRx := y }
    | .serial => { s with serialRx := y }
    | .message => s
  match w with
  | 0 => if g.en then s.ignore else put { x with log2s := clampTo 3 12 (bitsOf v 3 0) }
  | 1 => if g.en then s.ignore else put { x with base0 := v }
  | 2 => if g.en then s.ignore else put { x with base1 := v }
  | 4 => if g.owner ≠ wr.m then s.ignore else put (x.consume (bitsOf v 15 0))
  | _ => s

/-- A receive ring register as read (R334). -/
def RxRingState.read (x : RxRingState) (w : Nat) : Word :=
  match w with | 0 => word x.log2s | 1 => x.base0 | 2 => x.base1 | 3 => word x.pi | 4 => word x.ci | _ => 0

/-- A CAN register as read (R334). -/
def State.readCan (s : State) (idx : Nat) : Word :=
  if 0o010_600 ≤ idx then s.canRx.read (idx - 0o010_600)
  else
    let c := (idx - 0o010_400) / 16
    let w := (idx - 0o010_400) % 16
    let x := s.can c
    if w ≤ 6 then s.setupOr idx (canReset w)
    else match w with
      | 7 => word (fieldAt x.state 16 + fieldAt (flagNat (decide (96 ≤ x.tec) || decide (96 ≤ x.rec_))) 15 +
          fieldAt (flagNat (x.buffer 2).isSome) 14 + fieldAt (flagNat (x.buffer 1).isSome) 13 + fieldAt (flagNat (x.buffer 0).isSome) 12)
      | 8 => word (fieldAt x.tec 9 + x.rec_)
      | 9 => word (fieldAt x.lostImg 9 + x.lostRing)
      | _ => 0

/-- A serial register as read (R334). -/
def State.readSerial (s : State) (idx : Nat) : Word :=
  if 0o011_200 ≤ idx then s.serialRx.read (idx - 0o011_200)
  else
    let c := (idx - 0o011_000) / 16
    let w := (idx - 0o011_000) % 16
    let x := s.serial c
    if w ≤ 4 then s.setupOr idx (serialReset w)
    else match w with
      | 5 => word (fieldAt (flagNat x.active.isSome) 17 + fieldAt (flagNat x.ferr) 16 + fieldAt (flagNat x.perr) 15 +
          fieldAt (flagNat x.brk) 14)
      | 6 => word (fieldAt x.lostImg 9 + x.lostRing)
      | _ => 0

/-- A write to a CAN register (R334). -/
def State.writeCan (s : State) (wr : Writer) (idx : Nat) (v : Word) : State :=
  if 0o010_600 ≤ idx then s.writeRx wr .can s.canRx (idx - 0o010_600) v
  else
    let c := (idx - 0o010_400) / 16
    let w := (idx - 0o010_400) % 16
    if w ≤ 4 then s.writeChannel wr false c w idx v (s.canValue c w v)
    else if w ≤ 6 then s.writeInStop wr idx (s.canValue c w v)
    else s

/-- A write to a serial register (R334). -/
def State.writeSerial (s : State) (wr : Writer) (idx : Nat) (v : Word) : State :=
  if 0o011_200 ≤ idx then s.writeRx wr .serial s.serialRx (idx - 0o011_200) v
  else
    let c := (idx - 0o011_000) / 16
    let w := (idx - 0o011_000) % 16
    let x := s.serial c
    if w ≤ 2 then s.writeChannel wr true c w idx v (serialValue w v)
    else if w ≤ 4 then s.writeInStop wr idx (serialValue w v)
    else if w = 5 then
      s.setSerial c { x with ferr := x.ferr && !bitOf v 16, perr := x.perr && !bitOf v 15, brk := x.brk && !bitOf v 14 }
    else s

end Sys2Proof.Machine
end

