-- ==== Sys2Proof/Machine/Island.lean ====
section
/-!
DEFINITION. The safety island: pairs, functions, outputs, enables, the safety image and its commissioning
(R336–R363).
-/

namespace Sys2Proof.Machine

/-! ## The parameter block (R357, R358) -/

/-- The check value of a block (R357): the fold of R144 over its words. -/
def blockCheck (ws : List Word) : Dword := ws.foldl (fun sig w => foldSig sig (w.setWidth 36)) 0

/-- Fields of a pair's words. -/
structure PairCfg where
  en : Bool
  antivalent : Bool
  tpa : Nat
  tpb : Nat
  notp : Bool
  filt : Nat
  disc : Nat

/-- Pair `i` of a block. -/
def pairCfg (b : List Word) (i : Nat) : PairCfg :=
  let a := b.getD (4 + 2 * i) 0
  { en := bitOf a 17, antivalent := bitOf a 16, tpa := bitsOf a 15 14, tpb := bitsOf a 13 12, notp := bitOf a 11,
    filt := bitsOf a 10 5, disc := bitsOf (b.getD (5 + 2 * i) 0) 6 0 }

/-- Fields of a function's word. -/
structure FnCfg where
  kind : Nat
  rst : Bool
  pair1 : Nat
  pair2 : Nat

/-- Function `f` of a block. -/
def fnCfg (b : List Word) (f : Nat) : FnCfg :=
  let w := b.getD (20 + f) 0
  { kind := bitsOf w 17 15, rst := bitOf w 14, pair1 := bitsOf w 13 11, pair2 := bitsOf w 10 8 }

/-- A pair that some CURTAIN function uses. -/
def curtainPair (b : List Word) (i : Nat) : Bool :=
  (List.range 8).any fun f => (fnCfg b f).kind == 4 && (fnCfg b f).pair1 == i

/-- Pair words a0 are acceptable (R358). DEDUCED: the ranges bind a pair that is enabled. -/
def pairWordOk (b : List Word) (i : Nat) : Bool :=
  let a := b.getD (4 + 2 * i) 0
  let p := pairCfg b i
  bitsOf a 4 0 == 0 &&
    (!p.en || (decide (1 ≤ p.filt) && decide (p.filt ≤ 30) && (p.notp || p.tpa != p.tpb) &&
      (!curtainPair b i || (p.notp && decide (2 ≤ p.filt)))))

/-- Pair words a1 are acceptable (R358). -/
def discWordOk (b : List Word) (i : Nat) : Bool :=
  let p := pairCfg b i
  bitsOf (b.getD (5 + 2 * i) 0) 17 7 == 0 && (!p.en || (decide (1 ≤ p.disc) && decide (p.disc ≤ 100)))

/-- Function words are acceptable (R358). -/
def fnWordOk (b : List Word) (f : Nat) : Bool :=
  let x := fnCfg b f
  let on (i : Nat) : Bool := (pairCfg b i).en
  bitsOf (b.getD (20 + f) 0) 7 0 == 0 && decide (x.kind ≤ 4) &&
    (x.kind == 0 || on x.pair1) &&
    (x.kind != 3 || (on x.pair2 && x.pair1 != x.pair2 && (pairCfg b x.pair1).antivalent && (pairCfg b x.pair2).antivalent))

/-- Word `i` of a block is acceptable (R357, R358). -/
def blockWordOk (b : List Word) (i : Nat) : Bool :=
  let w := b.getD i 0
  if i = 0 then w == 1
  else if i = 1 then bitsOf w 17 8 == 0 && decide (2 ≤ bitsOf w 7 0)
  else if i = 2 then bitsOf w 17 6 == 0 && decide (1 ≤ bitsOf w 5 0) && decide (bitsOf w 5 0 ≤ 60)
  else if i = 3 then w == 0
  else if i < 20 then (if i % 2 = 0 then pairWordOk b ((i - 4) / 2) else discWordOk b ((i - 4) / 2))
  else if i < 28 then fnWordOk b (i - 20)
  else bitsOf w 7 0 == 0

/-- The first word at fault (R358). -/
def blockFault (b : List Word) : Option Nat := (List.range 32).find? fun i => !blockWordOk b i

/-! ## Faults (R340, R343) -/

/-- Record a fault raised; SF_CAUSE shows the last one. -/
def State.islandFault (s : State) (code index : Nat) : State :=
  ({ s with island := { s.island with causeCode := code, causeIndex := index } }).event 0o001_502 0 0 code index

/-- Record a fault cleared. -/
def State.islandClear (s : State) (code index : Nat) : State := s.event 0o001_503 0 0 code index

/-- A bit of a mask. -/
def bitMask (c : Nat) : Nat := 2 ^ c

/-- Raise or clear one cause in a mask of causes, recording each change. -/
def State.setCause (s : State) (mask code index : Nat) (now : Bool) : State × Nat :=
  if now = mask.testBit code then (s, mask)
  else if now then (s.islandFault code index, mask + bitMask code)
  else (s.islandClear code index, mask - bitMask code)

/-- The active block, all zeros where there is none. -/
def Island.cfg (x : Island) : List Word := x.block.getD []

/-- Pair `i`, function `f` and output `k` of the island. -/
def Island.pair (x : Island) (i : Nat) : PairState := Tbl.get {} x.pairs i
/-- Function `f`. -/
def Island.fn (x : Island) (f : Nat) : FnState := Tbl.get {} x.fns f
/-- Output `k`. -/
def Island.out (x : Island) (k : Nat) : SafeOut := Tbl.get {} x.outs k

/-- Write a pair. -/
def State.setPair (s : State) (i : Nat) (p : PairState) : State :=
  { s with island := { s.island with pairs := Tbl.set {} s.island.pairs i p } }
/-- Write a function. -/
def State.setFn (s : State) (f : Nat) (x : FnState) : State :=
  { s with island := { s.island with fns := Tbl.set {} s.island.fns f x } }
/-- Write an output. -/
def State.setOut (s : State) (k : Nat) (x : SafeOut) : State :=
  { s with island := { s.island with outs := Tbl.set {} s.island.outs k x } }

/-- Whether channel A and channel B of a pair stand in the closed state (R339). -/
def Island.closedSides (x : Island) (i : Nat) : Bool × Bool :=
  (x.inputs.testBit (2 * i), x.inputs.testBit (2 * i + 1) != (pairCfg x.cfg i).antivalent)

/-- The pair is in its closed state. -/
def Island.closed (x : Island) (i : Nat) : Bool := (x.closedSides i).1 && (x.closedSides i).2
/-- Both channels show the demand state. -/
def Island.demand (x : Island) (i : Nat) : Bool := !(x.closedSides i).1 && !(x.closedSides i).2
/-- The pair has a fault. -/
def Island.pairBad (x : Island) (i : Nat) : Bool := (x.pair i).faults != 0

/-- The source of one of a pair's channels fails its readback. -/
def sourceBad (p : PairCfg) (src : Nat) : Bool := !p.notp && (src.testBit p.tpa || src.testBit p.tpb)

/-- One pair in one cycle (R340): the discrepancy time, and the causes the tests find. -/
def State.cyclePair (s : State) (i : Nat) : State :=
  let x := s.island
  let p := pairCfg x.cfg i
  if !p.en then s
  else
    let st := x.pair i
    let differ := (x.closedSides i).1 != (x.closedSides i).2
    let apart := if differ then st.apart + 1 else 0
    let late := decide (10 * p.disc < 2 * apart)
    let one := late || (st.faults.testBit 1 && !x.demand i)
    let (s1, f1) := s.setCause st.faults 1 i one
    let (s2, f2) := s1.setCause f1 2 i (f1.testBit 2 || (!p.notp && x.last.missing.testBit i))
    let (s3, f3) := s2.setCause f2 3 i (f2.testBit 3 || (!p.notp && x.last.foreign.testBit i))
    let (s4, f4) := s3.setCause f3 4 i (f3.testBit 4 || sourceBad p x.last.source)
    s4.setPair i { faults := f4, apart := apart }

/-! ## Functions (R345, R346) -/

/-- The condition of an ESTOP, GUARD or CURTAIN function (R345). -/
def Island.condition (x : Island) (c : FnCfg) (st : FnState) : Bool :=
  x.closed c.pair1 && !x.pairBad c.pair1 && (c.kind != 2 || st.seen)

/-- One two-hand function (R345): both pressed within 500 ms of the first press, both released before. -/
def Island.twoHand (x : Island) (c : FnCfg) (st : FnState) : FnState :=
  let a := x.closed c.pair1
  let b := x.closed c.pair2
  let bad := x.pairBad c.pair1 || x.pairBad c.pair2
  let inTime := match st.first with | some n => decide (2 * (x.cycles - n) ≤ 500) | none => true
  if bad then { res := false }
  else if !a && !b then { res := false, ready := true }
  else if st.res then (if a && b then st else { res := false })
  else if !st.ready || !inTime then { res := false }
  else if a && b then { st with res := true, first := none }
  else { st with first := some (st.first.getD x.cycles) }

/-- One other function (R345, R346). -/
def Island.plainFn (x : Island) (c : FnCfg) (st : FnState) (reset : Bool) : FnState :=
  let both := x.demand c.pair1
  let st1 := { st with seen := st.seen || both }
  let cond := x.condition c st1
  let may := cond && (!c.rst || !st1.fallen || reset)
  { st1 with
    res := may
    fallen := if may then false else st1.fallen || st1.res
    rstReq := cond && !may
    seen := if st1.res && !may then both else st1.seen }

/-- One function in one cycle; a result that falls is a demand, recorded (R362). -/
def State.cycleFn (s : State) (f : Nat) : State :=
  let x := s.island
  let c := fnCfg x.cfg f
  if c.kind = 0 ∨ x.istate ≠ 2 then s.setFn f {}
  else
    let st := x.fn f
    let st' := if c.kind = 3 then x.twoHand c st else x.plainFn c st (x.resets.testBit f)
    s.setFn f st'

/-- The result word RES. -/
def Island.results (x : Island) : Nat :=
  (List.range 8).foldl (fun n f => n + (if (x.fn f).res then 2 ^ f else 0)) 0

/-- Demands of a cycle, recorded (R362). -/
def State.tellDemands (s : State) (before : Nat) : State :=
  let now := s.island.results
  (List.range 8).foldl (fun s f => if before.testBit f && !now.testBit f then s.event 0o001_504 0 0 f now else s) s

/-! ## Enables and outputs (R347, R348) -/

/-- The enables of the last message. -/
def Island.requested (x : Island) : Nat := bitsOf (x.message.getD 0 0) 3 0

/-- The enables in use, by the mode the foreman tells (R348). -/
def State.enables (s : State) : Nat :=
  let x := s.island
  let live := if x.entmo then 0 else x.requested
  match s.md.mode with
  | .run | .takeover | .track => live
  | .hold => if s.md.tasksRun then live else if s.holdSafe then 0 else x.heldEnables
  | _ => 0

/-- Whether an output is commanded on (R347). -/
def State.commanded (s : State) (k : Nat) : Bool :=
  let x := s.island
  let w := x.cfg.getD (28 + k) 0
  let mask := bitsOf w 15 8
  x.istate == 2 && bitOf w 17 && mask != 0 && (mask &&& x.results == mask) && (!bitOf w 16 || s.enables.testBit k) &&
    (x.out k).faults == 0

/-- One output in one cycle: faults found, then its switches (R342, R343, R347). -/
def State.cycleOut (s : State) (off : Bool) (k : Nat) : State :=
  let i := s.island.last
  let f := (s.island.out k).faults
  let (s1, f1) := s.setCause f 5 k (f.testBit 5 || i.high.testBit k)
  let (s2, f2) := s1.setCause f1 6 k (f1.testBit 6 || i.low.testBit k)
  let (s3, f3) := s2.setCause f2 8 k (f2.testBit 8 || i.excess.testBit k)
  let (s4, f4) := s3.setCause f3 10 k (f3.testBit 10 || !i.sovOk)
  let s5 := s4.setOut k { (s4.island.out k) with faults := f4 }
  s5.setOut k { on := !off && s5.commanded k, faults := f4 }

/-! ## Registers (R361) -/

/-- A mask of four or eight units. -/
def maskOf (n : Nat) (p : Nat → Bool) : Nat := (List.range n).foldl (fun m i => m + (if p i then 2 ^ i else 0)) 0

/-- SF_STAT (R361). -/
def Island.stat (x : Island) : Word :=
  word (fieldAt x.istate 16 + fieldAt (flagNat x.staged.isSome) 15 + fieldAt (flagNat x.entmo) 14 +
    fieldAt (maskOf 4 fun k => (x.out k).on) 10 + fieldAt (maskOf 4 fun k => (x.out k).faults != 0) 6 + fieldAt (x.sources % 16) 2 +
    fieldAt (flagNat x.sovOk) 1)

/-- SF_IN (R361). -/
def Island.inWord (x : Island) : Word :=
  word (fieldAt (maskOf 8 x.pairBad) 8 + maskOf 8 fun i => (pairCfg x.cfg i).en && x.closed i)

/-- SF_FN (R361). -/
def Island.fnWord (x : Island) : Word := word (fieldAt (maskOf 8 fun f => (x.fn f).rstReq) 8 + x.results)

/-- SF_CAUSE (R361). -/
def Island.causeWord (x : Island) : Word := word (fieldAt x.causeCode 12 + x.causeIndex % 8)

/-- The active and the staged check value (R357, R361). -/
def Island.check (x : Island) : Dword := match x.block with | some b => blockCheck b | none => 0
/-- The staged one; 0 while nothing is staged. -/
def Island.checkStaged (x : Island) : Dword := match x.staged with | some b => blockCheck b | none => 0

/-- An island register as read (R361, R507): the reset values while PD8 is off. -/
def State.readIsland (s : State) (idx : Nat) : Word :=
  let x := s.island
  let on := s.domainOn 8
  match idx - 0o012_000 with
  | 0 => if on then x.stat else 0
  | 1 => if on then x.inWord else 0
  | 2 => if on then x.fnWord else 0
  | 3 => dwordLow x.check
  | 4 => dwordHigh x.check
  | 5 => dwordLow x.checkStaged
  | 6 => dwordHigh x.checkStaged
  | 7 => if on then x.causeWord else 0
  | 8 => word (min (2 ^ 18 - 1) x.restarts)
  | _ => 0

/-! ## The safety image (R349, R350) -/

/-- The island's message of 16 words, input words 0o077_701–0o077_720 (R350). -/
def State.islandMessage (s : State) : List Word :=
  let x := s.island
  [x.stat, x.inWord, x.fnWord, x.causeWord, dwordLow x.check, dwordHigh x.check, lowWord x.cycles, highWord x.cycles,
   word s.enables, word x.seq] ++ List.replicate 6 0

/-- The island sends its message on channel 31, withdrawing one still pending first (R350). One from before a restart cannot be
withdrawn, and a SEND beside it is ignored and counted (R284, R286). -/
def State.islandSend (s : State) : State :=
  let c := s.channel 31
  if !(c.bind.usable s.tileCount) then s
  else if c.dirX.go ∧ c.dirX.orphan then s.ignore
  else
    let d := if c.dirX.go then { c.dirX with go := false, wresReady := true, wresStale := false, wresOutcome := 1, wresAsker := 2 }
             else c.dirX
    let (d1, o1) := sendDirection d c.dirY (blockOf s.islandMessage)
    ((s.setChannel 31 { c with dirX := d1, dirY := o1 }).doorbell c.bind.y (16 + 31)).arriveMail 62 c.bind.y

/-! ## The cycle (R338) -/

/-- The running firmware accepts the format of the safety block (R360). DESIGN CHOICE: the manifest lists it as block 128, whose
pages are 256 and 257 by the numbering of R478; a format it does not list is accepted. -/
def State.acceptsBlock (s : State) (b : List Word) : Bool :=
  match if s.firmware.active then s.firmware.slotB else s.firmware.slotA with
  | none => true
  | some m => m.formats.all fun f => f.1 != 128 || (decide (f.2.1 ≤ (b.getD 0 0).toNat) && decide ((b.getD 0 0).toNat ≤ f.2.2))

/-- At each start the check value and the format decide whether the island runs (R360). -/
def State.startedIsland (s : State) (x : Island) : Island :=
  match x.block, x.confirmed with
  | some b, some v => { x with istate := if blockCheck b = v ∧ s.acceptsBlock b then 2 else 1 }
  | _, _ => { x with istate := 1 }

/-- A confirmed block becomes active: two copies and the check value go to the page store (R357, R359). -/
def State.activateBlock (s : State) : State :=
  match s.island.staged with
  | none => s
  | some b =>
    let v := blockCheck b
    let x := { s.island with block := some b, confirmed := some v, staged := none, activateDue := false, istate := 2,
                             pairs := [], fns := [], resets := 0 }
    let s1 := ({ s with island := x }).event 0o001_501 0 0 (dwordLow v).toNat (dwordHigh v).toNat
    (s1.queueJob { owner := 2, ticket := none, work := .block 256 1 b }).queueJob
      { owner := 2, ticket := none, work := .block 258 1 [dwordLow v, dwordHigh v] }

/-- Whether the island runs at all: PD8 powered and not halted (R336, R337). -/
def State.islandRuns (s : State) : Bool := s.domainOn 8 && s.island.istate != 3

/-- ISLAND_CYCLE (R338): every 2 ms, inputs, functions, outputs, and the safety image message. -/
def execIslandCycle (i : IslandInputs) (s : State) : Out :=
  if !s.islandRuns then .next s
  else
    let x0 := { s.island with last := i, sovOk := i.sovOk, sources := s.island.sources ||| i.source % 16 }
    let x1 := if x0.istate = 0 then s.startedIsland x0 else x0
    let fresh := x1.activateDue
    let s1 := { s with island := x1 }
    let s2 := if fresh then s1.activateBlock else s1
    let before := s2.island.results
    let s3 := (List.range 8).foldl (fun s p => s.cyclePair p) s2
    let s4 := ((List.range 8).foldl (fun s f => s.cycleFn f) s3).tellDemands before
    let s5 := (List.range 4).foldl (fun s k => s.cycleOut fresh k) s4
    let s6 := { s5 with island := { s5.island with cycles := (s5.island.cycles + 1) % 2 ^ 36, resets := 0 } }
    .next s6.islandSend

/-- SAFETY_INPUT_FILTER (R339): a channel's filtered state, stable for FILT. -/
def execSafetyInputFilter (ch : Nat) (high : Bool) (s : State) : Out :=
  if 15 < ch ∨ !s.islandRuns ∨ s.island.inputs.testBit ch = high then .next s
  else .next { s with island := { s.island with inputs := if high then s.island.inputs + bitMask ch else s.island.inputs - bitMask ch } }

/-- DARK_TEST (R342, R343): on an output that is on; a switch that does not open raises cause 7. -/
def execDarkTest (k : Nat) (ok : Bool) (s : State) : Out :=
  let o := s.island.out k
  if 3 < k ∨ !s.islandRuns ∨ !o.on ∨ ok then .next s
  else .next ((s.islandFault 7 k).setOut k { on := false, faults := o.faults ||| bitMask 7 })

/-! ## Acknowledgement (R343) -/

/-- One pair's faults of codes 2–4 whose cause has gone clear. -/
def State.ackPair (s : State) (i : Nat) : State :=
  let x := s.island
  let p := pairCfg x.cfg i
  let f := (x.pair i).faults
  let (s1, f1) := s.setCause f 2 i (f.testBit 2 && x.last.missing.testBit i)
  let (s2, f2) := s1.setCause f1 3 i (f1.testBit 3 && x.last.foreign.testBit i)
  let (s3, f3) := s2.setCause f2 4 i (f2.testBit 4 && sourceBad p x.last.source)
  s3.setPair i { (s3.island.pair i) with faults := f3 }

/-- One output's faults whose cause has gone clear. -/
def State.ackOut (s : State) (k : Nat) : State :=
  let i := s.island.last
  let f := (s.island.out k).faults
  let (s1, f1) := s.setCause f 5 k (f.testBit 5 && i.high.testBit k)
  let (s2, f2) := s1.setCause f1 6 k (f1.testBit 6 && i.low.testBit k)
  let (s3, f3) := s2.setCause f2 7 k false
  let (s4, f4) := s3.setCause f3 8 k (f3.testBit 8 && i.excess.testBit k)
  let (s5, f5) := s4.setCause f4 10 k (f4.testBit 10 && !i.sovOk)
  s5.setOut k { (s5.island.out k) with faults := f5 }

/-- An acknowledgement (R343). -/
def State.islandAck (s : State) : State :=
  let s1 := (List.range 8).foldl (fun s i => s.ackPair i) s
  let s2 := (List.range 4).foldl (fun s k => s.ackOut k) s1
  { s2 with island := { s2.island with sources := s2.island.sources &&& s2.island.last.source } }

/-- SAFE_ACK (R343, R362). -/
def execSafeAck (q : Req) (s : State) : Out :=
  .next (runCommand 0 0o142 1 q s fun s q k cred =>
    ((if s.islandRuns then s.islandAck else s).changedBy cred q).complete k .done)

/-! ## The enables message (R346, R348, R352) -/

/-- Reset requests of a message against the one before: a falling edge after 100 ms to 5 s takes the reset (R346). -/
def Island.resetEdge (x : Island) (new : Word) (f : Nat) : Island :=
  let was := bitOf (x.message.getD 1 0) f
  let now := bitOf new f
  if now && !was then { x with rose := Tbl.set none x.rose f (some x.cycles) }
  else if was && !now then
    match Tbl.get none x.rose f with
    | some n =>
      let ms := 2 * (x.cycles - n)
      { x with rose := Tbl.set none x.rose f none
               resets := if 100 ≤ ms ∧ ms ≤ 5000 then x.resets ||| bitMask f else x.resets }
    | none => x
  else x

/-- The island takes a message's words 0–2 (R343, R346, R348, R352). -/
def State.takeEnables (s : State) (ws : List Word) (seq : Nat) : State :=
  let old := s.island
  let ack := bitOf (ws.getD 2 0) 0 && !bitOf (old.message.getD 2 0) 0
  let x := (List.range 8).foldl (fun x f => x.resetEdge (ws.getD 1 0) f) old
  let s1 := { s with island := { x with message := fitWords 3 ws, seq := seq, entmo := false } }
  if ack then s1.islandAck else s1

/-- ENABLES_MESSAGE (R352): the island takes and acknowledges the message pending on channel 31. -/
def execEnablesMessage (s : State) : Out :=
  let c := s.channel 31
  let d := c.dirY
  if !s.islandRuns ∨ !(c.bind.usable s.tileCount) ∨ !d.go then .next s
  else
    let ws := Tbl.getMany 0 d.msg 0 3
    .next (((s.setChannel 31 { c with dirY := d.take }).doorbell c.bind.y (16 + 31)).takeEnables ws d.seq)

/-- ENABLE_TIMEOUT (R348): no message for ENTMO in Run, Takeover or Track. -/
def execEnableTimeout (s : State) : Out :=
  match s.md.mode with
  | .run | .takeover | .track => if s.islandRuns then .next { s with island := { s.island with entmo := true } } else .next s
  | _ => .next s

/-- The safety interface task's send (R352): output words 0o077_700–0o077_702 as committed by the end of the last tick,
with the tick number in words 3–4; a send that finds GO set is refused, counted and recorded as a tile's is (R285). -/
def State.sendEnables (s : State) (overwrite : Bool) : State :=
  let c := s.channel 31
  if !(c.bind.usable s.tileCount) ∨ (c.dirY.go ∧ !overwrite) then
    if overwrite then s else ({ s with refusedSends := inc18 s.refusedSends } : State).event 0o001_302 2 0 31 0
  else
    let m := s.work.mortar
    let ws := [Tbl.get 0 m.out 0o077_700, Tbl.get 0 m.out 0o077_701, Tbl.get 0 m.out 0o077_702, lowWord s.tickNumber,
               highWord s.tickNumber] ++ List.replicate 11 0
    let (d, o) := sendDirection c.dirY c.dirX (blockOf ws)
    (s.setChannel 31 { c with dirY := d, dirX := o }).doorbell c.bind.x (16 + 31)

/-! ## Restart (R336) -/

/-- Cycles of 2 ms in one hour. -/
def cyclesPerHour : Nat := 1800000

/-- ISLAND_RESTART (R336): outputs off, identity 2 revoked; the third restart within 1 h halts the island. DEDUCED: the island keeps
nothing of the messages it took before. DESIGN CHOICE: what a function's result was is forgotten too, so RST asks for no reset
after a restart. -/
def execIslandRestart (s : State) : Out :=
  if !s.islandRuns then .next s
  else
    let x := s.island
    let recent := (x.recent.filter fun n => decide (x.cycles - n < cyclesPerHour)) ++ [x.cycles]
    let halt := decide (3 ≤ recent.length)
    let y := { x with istate := if halt then 3 else 0, staged := none, activateDue := false, pairs := [], sources := 0, fns := [],
                      outs := [], message := [], seq := 0, entmo := false, rose := [], resets := 0, causeCode := 9, causeIndex := 0,
                      restarts := min (2 ^ 18 - 1) (x.restarts + 1), recent := recent }
    .next ((({ s with island := y }).revoke 2).event 0o001_505 0 0 (flagNat halt) recent.length)

/-- The island when PD8 powers up: nothing raised, nothing staged; the block, its confirmed value and the restart count
are kept (R360, R363). -/
def Island.powerUp (x : Island) : Island :=
  { block := x.block, confirmed := x.confirmed, restarts := x.restarts }

/-! ## Commissioning (R358, R359, R362) -/

/-- SAFE_PARAM_SET (R358, R359). -/
def execSafeParamSet (q : Req) (s : State) : Out :=
  .next (runCommand 0 0o140 2 q s fun s q k cred =>
    let b := fitWords 32 q.data
    if s.md.mode ≠ .stop ∨ !s.islandRuns then s.complete k (.refused 0)
    else match blockFault b with
      | some i => s.complete k { status := stRefused, detail := i }
      | none =>
        let v := blockCheck b
        (({ s with island := { s.island with staged := some b, activateDue := false } }).eventBy cred 0o001_500 (dwordLow v).toNat
          (dwordHigh v).toNat).complete k .done)

/-- SAFE_CONFIRM (R359): over the service port alone. -/
def execSafeConfirm (q : Req) (s : State) : Out :=
  .next (runCommand 0 0o141 2 q s fun s q k cred =>
    match q.origin with
    | .session _ =>
      if s.md.mode ≠ .stop ∨ !s.islandRuns ∨ s.island.staged.isNone ∨ joinDword q.desc.a0 q.desc.a1 ≠ s.island.checkStaged then
        s.complete k (.refused 0)
      else (({ s with island := { s.island with activateDue := true } }).changedBy cred q).complete k .done
    | _ => s.complete k { status := stDenied })

/-- SAFE_PARAM_GET (R362). -/
def execSafeParamGet (q : Req) (s : State) : Out :=
  .next (runCommand 0 0o143 1 q s fun s q k _ =>
    match if q.desc.a0 = 0 then s.island.block else s.island.staged with
    | some b => s.complete k { data := b }
    | none => s.complete k (.refused 0))

end Sys2Proof.Machine
end

