-- ==== Sys2Proof/Machine/FieldIo.lean ====
section
/-!
DEFINITION. Field inputs and outputs (R364–R378).
-/

namespace Sys2Proof.Machine

/-- One field output. -/
def Field.out (x : Field) (k : Nat) : FieldOut := Tbl.get {} x.outs k
/-- Write one field output. -/
def State.setFieldOut (s : State) (k : Nat) (o : FieldOut) : State :=
  { s with field := { s.field with outs := Tbl.set {} s.field.outs k o } }

/-- Class of an input. -/
def Field.cls (x : Field) (i : Nat) : Nat := Tbl.get 0 x.inputs i

/-- The fault code an output shows (R370): the lowest cause latched or present; 0 for none. -/
def FieldOut.code (o : FieldOut) : Nat :=
  let m := o.latched ||| o.present
  ((List.range 6).find? fun c => decide (1 ≤ c) && m.testBit c).getD 0

/-- The switch of an output may be on (R370): commanded, nothing latched, its supply in range. -/
def FieldOut.may (o : FieldOut) : Bool := o.commanded && o.latched == 0 && !o.present.testBit 5

/-- WBEN of an input in effect (R375). -/
def State.wben (s : State) (i : Nat) : Bool :=
  if i < 18 then bitOf (s.setupTickOr 0o012_402 0) i else bitOf (s.setupTickOr 0o012_403 0) (i - 18)

/-- FO_SAFE in effect. -/
def State.foSafe (s : State) : Word := s.setupTickOr 0o012_406 0

/-- OLEN of an output in effect. -/
def State.olen (s : State) (k : Nat) : Bool := bitOf (s.setupTickOr 0o012_407 0) k

/-! ## Inputs (R367, R368, R377) -/

/-- A change of a fault code of one channel, recorded (R377). -/
def State.fieldEvent (s : State) (ch old new : Nat) : State :=
  let s1 := if old ≠ 0 ∧ old ≠ new then s.event 0o001_601 0 0 ch old else s
  if new ≠ 0 ∧ old ≠ new then s1.event 0o001_600 0 0 ch new else s1

/-- The fault code of an input class. -/
def inputFault (cls : Nat) : Nat := if 2 ≤ cls then cls else 0

/-- The class of an input by its current in 10 µA, none for reversed polarity (R367): two bands keep the class before. -/
def inputClass (wben : Bool) (before : Nat) : Option Nat → Nat
  | none => 3
  | some c =>
    if c < 15 then (if wben then 2 else 0)
    else if c < 30 then (if wben then before else 0)
    else if c < 120 then 0
    else if c < 160 then before
    else 1

/-- INPUT_DEBOUNCE (R367, R368): the class of a current that has held for FILT counts. -/
def execInputDebounce (i : Nat) (current : Option Nat) (s : State) : Out :=
  if 31 < i ∨ !s.domainOn 8 then .next s
  else
    let c := inputClass (s.wben i) (s.field.cls i) current
    let s1 := s.fieldEvent i (inputFault (s.field.cls i)) (inputFault c)
    .next { s1 with field := { s1.field with inputs := Tbl.set 0 s1.field.inputs i c } }

/-- State bits of inputs `first` to `first + n − 1`: wire break and reversed read 0 (R365, R367). -/
def Field.bits (x : Field) (first n : Nat) : Word :=
  word ((List.range n).foldl (fun m i => m + (if x.cls (first + i) = 1 then 2 ^ i else 0)) 0)

/-- The fault word (R364, R365). -/
def Field.faultWord (x : Field) : Word :=
  let ins (g : Nat) : Bool := (List.range 8).any fun i => decide (2 ≤ x.cls (8 * g + i))
  let outs (g : Nat) : Bool := (List.range 8).any fun k => (x.out (8 * g + k)).code != 0
  word (flagNat (ins 0) + 2 * flagNat (ins 1) + 4 * flagNat (ins 2) + 8 * flagNat (ins 3) + 16 * flagNat (outs 0) + 32 * flagNat (outs 1))

/-- LATCH_INSTANT (R46, R365): local inputs are sampled, and UTC is taken: train time's in TSTATE 2 and 3, else the
clock's (R70, R311). -/
def execLatchInstant (i : LatchInputs) (s : State) : Out :=
  let s := s.elapse i.el
  if !s.md.mode.ticks then .next s
  else
    let x := s.field
    let train := decide (2 ≤ s.train.tstate)
    .next { s with field := { x with
      sampled0 := x.bits 0 18, sampled1 := x.bits 18 14, faults := x.faultWord
      utcSec := if train then i.utcSec else s.clock.sec
      utcSub := if train then i.utcSub else s.clock.sub } }

/-- Local inputs enter image n; cause 5 is raised when a fault bit changes from 0 to 1 (R56, R365). -/
def State.closeField (s : State) : State :=
  let x := s.field
  let s1 := { s.writeFields s.fiBase [x.sampled0, x.sampled1, x.faults] with field := { x with shown := x.faults } }
  if x.faults &&& ~~~ x.shown = 0 then s1 else s1.raise 5

/-! ## Outputs (R370, R371) -/

/-- One output takes a command: its switch follows where it may be on, and a switch that is on shows neither an open load nor an
external voltage, nor an output without OLEN an open load (R370). -/
def FieldOut.drive (o : FieldOut) (cmd olen : Bool) : FieldOut :=
  let n := { o with commanded := cmd }
  { n with on := n.may, present := n.present &&& (if n.may then 0o47 else if olen then 0o77 else 0o67) }

/-- One output at an update: the command, and with it 0 a latched fault whose cause has gone clears (R370). -/
def State.updateOut (s : State) (w : Word) (k : Nat) : State :=
  let o := s.field.out k
  let cmd := bitOf w k
  let n := { o with latched := if cmd then o.latched else o.latched &&& o.present }.drive cmd (s.olen k)
  (s.setFieldOut k n).fieldEvent (32 + k) o.code n.code

/-- An update of the field side (R371). DEDUCED: in a mode whose outputs stand in their safe states the update is what is emitted,
and with its bit at 0 releases a latched fault. -/
def State.updateField (s : State) (w : Word) : State :=
  if s.domainOn 8 then (List.range 16).foldl (fun s k => s.updateOut w k) s else s

/-- The update at T0: the emitted output word where outputs follow the image, else the safe states (R22, R187, R371). -/
def State.fieldBoundary (s : State) : State :=
  s.updateField (if s.outputsLive then Tbl.get 0 s.work.mortar.emitted s.foBase else s.foSafe)

/-- FIELD_UPDATE_UNTICKED (R371): every 1,000 µs in modes in which the tick does not run. -/
def execFieldUpdateUnticked (el : Elapsed) (s : State) : Out :=
  let s := s.elapse el
  if s.md.mode.ticks ∨ !s.md.mode.powered then .next s else .next (s.updateField s.foSafe)

/-- One output put into its safe state by the field side itself: nothing is emitted, so a latched fault stays. -/
def State.silenceOut (s : State) (k : Nat) : State :=
  let o := s.field.out k
  let n := o.drive (bitOf s.foSafe k) (s.olen k)
  (s.setFieldOut k n).fieldEvent (32 + k) o.code n.code

/-- LOGIC_SILENCE_TIMEOUT (R371): the field side applies the safe states and sets SILENT. -/
def execLogicSilenceTimeout (s : State) : Out :=
  if !s.domainOn 8 then .next s
  else
    let s1 := (List.range 16).foldl (fun s k => s.silenceOut k) s
    .next { s1 with field := { s1.field with silent := true } }

/-- One output's cause appears or goes; a switch that may not be on opens, and closes with the next update alone (R370, R378). -/
def FieldOut.note (o : FieldOut) (code : Nat) (present : Bool) : FieldOut :=
  let p := if present then o.present ||| 2 ^ code else o.present &&& (63 - 2 ^ code)
  let n :=
    if code = 1 then (if present then { o with latched := o.latched ||| 2 } else o)
    else if code = 2 then { o with present := p, latched := if present then o.latched ||| 4 else o.latched }
    else { o with present := p }
  { n with on := o.on && n.may }

/-- FIELD_OUTPUT_FAULT (R370): a cause appears or goes; open load and external voltage need the output off, open load needs OLEN
too, and a supply fault acts on the 8 outputs of its group. -/
def execFieldOutputFault (k code : Nat) (present : Bool) (s : State) : Out :=
  if 15 < k ∨ code = 0 ∨ 5 < code ∨ !s.domainOn 8 then .next s
  else if present ∧ ((code = 3 ∧ !s.olen k) ∨ ((code = 3 ∨ code = 4) ∧ (s.field.out k).on)) then .next s
  else
    let ks := if code = 5 then (List.range 8).map fun i => 8 * (k / 8) + i else [k]
    .next (ks.foldl (fun s k =>
      let o := s.field.out k
      let n := o.note code present
      (s.setFieldOut k n).fieldEvent (32 + k) o.code n.code) s)

/-- FIELD_STATUS (R376): 50 words; `measured` gives the currents of the 32 inputs in 10 µA, of the 16 outputs in mA, and
OSA and OSB in 0.1 V. -/
def execFieldStatus (q : Req) (measured : List Nat) (s : State) : Out :=
  .next (runCommand 0 0o150 1 q s fun s _ k _ =>
    let v (i m : Nat) : Nat := min m (measured.getD i 0)
    let ins := (List.range 32).map fun i => word (fieldAt (s.field.cls i) 15 + v i 511)
    let outs := (List.range 16).map fun j =>
      let o := s.field.out j
      word (fieldAt o.code 15 + fieldAt (flagNat o.commanded) 14 + fieldAt (flagNat (o.on && s.domainOn 8)) 13 + v (32 + j) 2047)
    s.complete k { data := ins ++ outs ++ [word (v 48 0o777_777), word (v 49 0o777_777)] })

/-! ## Registers (R375) -/

/-- Reset values. -/
def fieldReset (w : Nat) : Word :=
  match w with | 1 => 0o010_421 | 4 => 0o076_775 | 5 => 0o076_777 | 8 => 0o000_003 | _ => 0

/-- The UN codes with 6 and 7 taken as 5. -/
def clampUn (v : Word) : Word := word ((List.range 4).foldl (fun n g => n + fieldAt (min 5 (bitsOf v (3 * g + 2) (3 * g))) (3 * g)) 0)

/-- A field I/O register as read (R375). -/
def State.readField (s : State) (idx : Nat) : Word :=
  let w := idx - 0o012_400
  if w ≤ 8 then s.setupOr idx (fieldReset w)
  else if w = 9 then
    word (fieldAt (flagNat (s.domainOn 8)) 7 + fieldAt (flagNat s.field.silent) 6 + bitsOf s.field.faults 5 0)
  else 0

/-- A write to a field I/O register: the rules of R45 (R375). -/
def State.writeField_ (s : State) (wr : Writer) (idx : Nat) (v : Word) : State :=
  let w := idx - 0o012_400
  let put (x : Word) : State := s.writeInStop wr idx x
  match w with
  | 0 => put (clampUn v)
  | 1 => put (v &&& 0o177_777)
  | 2 => put v
  | 3 => put (v &&& 0o037_777)
  | 4 => put (word (min 0o076_775 (bitsOf v 14 0)))
  | 5 => put (word (min 0o076_777 (bitsOf v 14 0)))
  | 6 => put (v &&& 0o177_777)
  | 7 => put (v &&& 0o177_777)
  | 8 => put (word (max 1 (bitsOf v 7 0)))
  | 9 =>
    if s.md.mode = .stop ∧ 2 ≤ wr.right then
      (if bitOf v 6 then ({ s with field := { s.field with silent := false } } : State).changed wr.cred idx v.toNat wr.m else s)
    else s.refuseRecorded wr idx v
  | _ => s

end Sys2Proof.Machine
end

