-- ==== Sys2Proof/Machine/Metering.lean ====
section
/-!
DEFINITION. Energy measurement: samples, products, accumulators, intervals, gaps, pulse outputs and the metering
image (R379–R399).
-/

namespace Sys2Proof.Machine

/-! ## Set-up in effect (R396) -/

/-- EN, NOMF, WIRING, INTV. -/
def State.mtEn (s : State) : Bool := bitOf s.mtCfg 17
/-- NOMF: 0 50 Hz, 1 60 Hz. -/
def State.mtNomf (s : State) : Nat := bitsOf s.mtCfg 16 16
/-- INTV in seconds. -/
def State.mtInterval (s : State) : Nat := 60 * clampTo 1 60 (bitsOf s.mtCfg 5 0)
/-- MT_VFS in 0.1 V. -/
def State.mtVfs (s : State) : Nat := max 100 (bitsOf (s.setupTickOr 0o013_001 0o011_610) 15 0)
/-- MT_IFS in 0.01 A. -/
def State.mtIfs (s : State) : Nat := max 10 (bitsOf (s.setupTickOr 0o013_002 0o047_040) 15 0)
/-- MT_GAIN of a channel. -/
def State.mtGain (s : State) (c : Nat) : Nat := (s.setupTickOr (0o013_003 + c) 0o400_000).toNat
/-- MT_PHC of a current. -/
def State.mtPhc (s : State) (c : Nat) : Int := signedOf 9 (s.setupTickOr (0o013_012 + c) 0).toNat
/-- MT_EP of a pulse output. -/
def State.mtEp (s : State) (i : Nat) : Word := s.setupTickOr (0o013_015 + i) 0o002_400
/-- MT_EPK of a pulse output. -/
def State.mtEpk (s : State) (i : Nat) : Nat := clampTo 1 100000 (bitsOf (s.setupTickOr (0o013_017 + i) 0o001_750) 16 0)

/-! ## Exact arithmetic -/

/-- A quotient rounded down or up: the spec names no direction, so a free bit decides where it is not exact. -/
def roundFree (free : Word) (num den : Int) : Int :=
  num / den + (if num % den = 0 then 0 else ((flagNat (bitOf free 0) : Nat) : Int))

/-- A quotient rounded to the nearest; a free bit decides a tie (R384). -/
def roundNearest (free : Word) (num den : Int) : Int :=
  let r := num % den
  num / den + (if 2 * r < den then 0 else if den < 2 * r then 1 else ((flagNat (bitOf free 0) : Nat) : Int))

/-- The integer square root of a number below 2¹⁷⁶, bit by bit. -/
def isqrt (n : Nat) : Nat :=
  (List.range 88).foldl (fun r i => let t := r + 2 ^ (87 - i); if t * t ≤ n then t else r) 0

/-- A square root rounded down or up, as a free bit decides where it is not exact. -/
def sqrtFree (free : Word) (n : Nat) : Nat :=
  let r := isqrt n
  r + (if r * r = n then 0 else flagNat (bitOf free 0))

/-- Full scale of a sample (R383). -/
def fullScale : Int := 131071

/-- A value saturated to full scale. -/
def saturateSample (v : Int) : Int := max (-fullScale) (min fullScale v)

/-! ## Samples (R383–R385) -/

/-- Scale one channel's sample by its gain (R384). -/
def State.scaleSample (s : State) (c : Nat) (x : Int) : Int :=
  roundNearest (Config.freeWord (s.fresh + c)) (x * (s.mtGain c : Nat)) 131072

/-- Channel values of a history. -/
def channelHist (hist : List (List Int)) (c : Nat) : List Int := hist.map fun l => l.getD c 0

/-- p and q of one sample, scaled by MT_VFS × MT_IFS (R385); the currents are shifted by PHC (R384). -/
def State.products (s : State) (hist : List (List Int)) : Int × Int :=
  let cur := hist.headD []
  let i (k : Nat) : Int := if s.mtPhc k = 0 then cur.getD (3 + k) 0 else Config.phaseShift (s.mtPhc k) (channelHist hist (3 + k))
  let vh (k : Nat) : Int := Config.quarterDelay s.mtNomf (channelHist hist k)
  let scale : Int := ((s.mtVfs * s.mtIfs : Nat) : Int)
  (scale * (cur.getD 0 0 * i 0 + cur.getD 1 0 * i 1 + cur.getD 2 0 * i 2), scale * (vh 0 * i 0 + vh 1 * i 1 + vh 2 * i 2))

/-- Channels that saturate. -/
def overMask (l : List Int) : Nat := maskOf 7 fun c => l.getD c 0 != saturateSample (l.getD c 0)

/-! ## Modulator frames (R379, R380, R382) -/

/-- The bit of a Manchester cell: 0 is low then high, 1 high then low. -/
def cellBit (f : BitVec 16) (i : Nat) : Bool := f.getLsbD (2 * i)

/-- A cell holds a Manchester bit. -/
def cellValid (f : BitVec 16) (i : Nat) : Bool := f.getLsbD (2 * i) != f.getLsbD (2 * i + 1)

/-- Cells 0 and 1 are the sync: a whole cell high, then a whole cell low. -/
def frameSync (f : BitVec 16) : Bool := f.getLsbD 0 && f.getLsbD 1 && !f.getLsbD 2 && !f.getLsbD 3

/-- Cell 7 makes the parity of cells 2 to 6 even. -/
def frameParity (f : BitVec 16) : Bool := ((List.range 6).foldl (fun p i => p != cellBit f (2 + i)) false) == false

/-- A good frame. DEDUCED: a cell that holds no Manchester bit fails the check too. -/
def frameGood (f : BitVec 16) : Bool := frameSync f && (List.range 6).all (fun i => cellValid f (2 + i)) && frameParity f

/-- The S cell of a good frame is 1. -/
def frameStarts (f : BitVec 16) : Bool := frameGood f && cellBit f 6

/-- One frame of each link as the block keeps it: V1–V3 and IN come in slots 0–3 of link A, I1–I3 in slots 0–2 of link B. -/
def framePair (a b : BitVec 16) : Nat :=
  (List.range 3).foldl (fun n k => n + fieldAt (flagNat (cellBit a (2 + k))) k + fieldAt (flagNat (cellBit b (2 + k))) (3 + k))
    (fieldAt (flagNat (cellBit a 5)) 6 + fieldAt (flagNat (!(frameGood a && frameGood b))) 7)

/-- The frames of one sample period, newest first; a frame that does not come is a bad one. -/
def framesOf (x : MeterSample) : List Nat :=
  (List.range 256).reverse.map fun i => framePair (x.framesA.getD i 0) (x.framesB.getD i 0)

/-! ## Decimation (R383) -/

/-- Weight of the frame j back in the third-order sinc filter over 256 frames. -/
def sincWeight (j : Nat) : Nat :=
  let t (n : Nat) : Nat := (n + 1) * (n + 2) / 2
  if j < 256 then t j else if j ≤ 510 then t j - 3 * t (j - 256) else t (765 - j)

/-- The filter's sum for a channel over a span of frames, newest first. -/
def sincSum (c : Nat) : Nat → List Nat → Nat
  | _, [] => 0
  | j, f :: fs => (if f.testBit c ∧ j < 766 then sincWeight j else 0) + sincSum c (j + 1) fs

/-- An instant in ns less the 375 µs of the filter, in 2⁻¹⁸ s; a free bit decides where the step is not exact (R383). -/
def stampOf (free : Word) (sec ns : Nat) : Nat × Nat :=
  let v := (roundFree free (((sec * 10 ^ 9 + ns - 375000) * 2 ^ 18 : Nat) : Int) 1000000000).toNat
  (v / 2 ^ 18, v % 2 ^ 18)

/-- The last samples of every channel that are kept. -/
def histDepth : Nat := 1024

/-- METERING_SAMPLE (R380–R385): the frames of one sample period give one sample of every channel. It is missing when a frame of its
768 is bad or a link is lost; it waits for its tick to count it, unless no tick runs or it is one of the three whose instant does
not follow the first T0 (R387). -/
def execMeteringSample (x : MeterSample) (s : State) : Out :=
  let d := s.modulators
  if !s.domainOn 9 then .next s
  else
    let new := framesOf x
    let span := new ++ d.frames
    let sums := ((List.range 7).map fun c => sincSum c 0 span) :: d.sums
    let values := (List.range 7).map fun c => Config.droop (sums.map fun l => l.getD c 0)
    let scaled := (List.range 7).map fun c => s.scaleSample c (saturateSample (values.getD c 0))
    let vals := scaled.map saturateSample
    let hist := (vals :: d.hist).take histDepth
    let (p, q) := s.products hist
    let bad (f : Nat) : Bool := f.testBit 7
    let at_ := stampOf (Config.freeWord (s.fresh + 7)) x.sec x.ns
    let stamp : Int := ((s.work.count * s.tick.period * 1000 + x.off : Nat) : Int) - 375000
    let m : MeterIn := { values := vals, p := p, q := q, sec := at_.1, sub := at_.2, stamp := stamp,
                         bad := span.any bad || !d.linkA || !d.linkB,
                         late := !s.md.imageClosed && decide (1000 * s.tick.inwin < x.off + 2000) }
    let counts := s.md.mode.ticks && d.skip == 0
    let hit := overMask values ||| overMask scaled
    let mt := s.work.meter
    let mt1 := { mt with flags := if hit ≠ 0 ∧ mt.open_ then mt.flags ||| 128 else mt.flags }
    .next { s with
      fresh := s.fresh + 8
      work := { s.work with meter := mt1 }
      modulators := { d with
        index := (d.index + 1) % 2 ^ 35, frames := span.take 512, sums := sums.take histDepth, hist := hist
        pending := if counts then d.pending ++ [m] else d.pending
        skip := if s.md.mode.ticks then d.skip - 1 else d.skip, stamp := stamp
        align := frameStarts (x.framesA.getD 0 0) && frameStarts (x.framesB.getD 0 0) && decide (x.skew ≤ 2000)
        ferr := d.ferr || new.any bad, ovr := d.ovr ||| hit } }

/-- One modulator link changes (R382). -/
def State.setModulator (s : State) (link : Nat) (good : Bool) : State :=
  let d := s.modulators
  if !s.domainOn 9 ∨ 1 < link ∨ (if link = 0 then d.linkA else d.linkB) = good then s
  else
    let d1 := if link = 0 then { d with linkA := good } else { d with linkB := good }
    ({ s with modulators := { d1 with ferr := d1.ferr || !good } }).event 0o001_701 0 0 link (flagNat (!good))

/-- MODULATOR_LINK_LOSS (R382): four consecutive bad frames. -/
def execModulatorLinkLoss (link : Nat) (s : State) : Out := .next (s.setModulator link false)
/-- MODULATOR_LINK_REGAIN (R382): 256 consecutive good frames with an S cell. -/
def execModulatorLinkRegain (link : Nat) (s : State) : Out := .next (s.setModulator link true)

/-! ## Accumulators (R386, R387) -/

/-- Units of 2⁻³⁶ mWh in p × MT_VFS × MT_IFS summed over the window: the numerator over this divisor (R385, R386). A
sample of 1 W for 125 µs is 1/28,800 mWh. -/
def energyDivisor : Int := 1000 * 131071 * 131071 * 800 * 28800

/-- Energy in 2⁻³⁶ of the unit from a window sum. -/
def energyOf (free : Word) (sum : Int) : Nat := (roundFree free (sum.natAbs * 2 ^ 36) energyDivisor).toNat

/-- Accumulator `a`. -/
def Meter.accum (m : Meter) (a : Nat) : Nat := Tbl.get 0 m.acc a

/-- A pulse output's state. -/
def Meter.pulse (m : Meter) (i : Nat) : Pulse := Tbl.get {} m.pulses i

/-- Add energy to one accumulator, and to the remainder of each pulse output that follows it (R386, R393). -/
def Meter.credit (m : Meter) (src : Nat → Option Nat) (a e : Nat) : Meter :=
  let bump (x : Meter) (i : Nat) : Meter :=
    if src i = some a then
      let u := x.pulse i
      { x with pulses := Tbl.set {} x.pulses i { u with rem := u.rem + e * u.k } }
    else x
  bump (bump { m with acc := Tbl.set 0 m.acc a ((m.accum a + e) % 2 ^ 108) } 0) 1

/-- The source of each enabled pulse output (R393). -/
def State.pulseSource (s : State) (i : Nat) : Option Nat :=
  if bitOf (s.mtEp i) 17 then some (bitsOf (s.mtEp i) 16 14) else none

/-- Credit one sample from window sums P and Q: one active, one reactive and one apparent accumulator, by their signs
(R386). The accumulators are 0 A+, 1 A−, 2–5 Q1–Q4, 6 S+, 7 S−. -/
def State.creditSums (s : State) (p q : Int) : State :=
  let f (i : Nat) : Word := Config.freeWord (s.fresh + i)
  let root := sqrtFree (f 0) (p.natAbs * p.natAbs + q.natAbs * q.natAbs)
  let active := if 0 ≤ p then 0 else 1
  let reactive := if 0 ≤ p then (if 0 ≤ q then 2 else 5) else (if 0 ≤ q then 3 else 4)
  let apparent := if 0 ≤ p then 6 else 7
  let src := s.pulseSource
  let m := ((s.work.meter.credit src active (energyOf (f 1) p)).credit src reactive (energyOf (f 2) q)).credit src apparent
    (energyOf (f 3) root)
  { s with fresh := s.fresh + 4, work := { s.work with meter := { m with lastP := p, lastQ := q, lastS := root } } }

/-- Sum of a window. -/
def windowSum (l : List (Int × Int)) : Int × Int := l.foldl (fun a x => (a.1 + x.1, a.2 + x.2)) (0, 0)

/-- Count one sample (R385, R386). -/
def State.countSample (s : State) (x : MeterIn) : State :=
  let m := s.work.meter
  let w := ((x.p, x.q) :: m.window).take 800
  let s1 := { s with work := { s.work with meter := { m with window := w, sec := x.sec, sub := x.sub, count := m.count + 1 } } }
  let (p, q) := windowSum w
  s1.creditSums p q

/-- The weighted sums that R387 credits when counting stops: the newest sample weighs 799, the oldest of 800 weighs 0. -/
def tailSums : Int → List (Int × Int) → Int × Int
  | _, [] => (0, 0)
  | w, x :: xs =>
    let r := tailSums (w - 1) xs
    (w * x.1 + r.1, w * x.2 + r.2)

/-- Counting stops (R387): the parts of the samples still in the window are credited at once, and it empties. -/
def State.stopCounting (s : State) : State :=
  let m := s.work.meter
  if !m.counting then s
  else
    let (p, q) := tailSums 799 m.window
    let s1 := if m.window.isEmpty then s else s.creditSums p q
    { s1 with work := { s1.work with meter := { s1.work.meter with window := [], counting := false } } }

/-- The instant of the sample after the last one counted: 125 µs later, to the nearest 2⁻¹⁸ s. -/
def Meter.nextStamp (m : Meter) : Nat × Nat :=
  let n := m.sub + 33
  (m.sec + n / 2 ^ 18, n % 2 ^ 18)

/-- The instant of the first sample after a boundary: of the one received, else of the one after the last counted. -/
def State.boundaryStamp (s : State) : Nat × Nat :=
  match s.modulators.pending with
  | x :: _ => (x.sec, x.sub)
  | [] => s.work.meter.nextStamp

/-- Counting stops for a restart, Update or Service, or EN 0: a gap of KIND 1 begins (R387, R392). -/
def State.meterStop (s : State) (unsealed : Bool) : State :=
  let m := s.work.meter
  if m.gap.isSome ∨ !m.open_ then s.stopCounting
  else
    let (a, b) := m.nextStamp
    let s1 := s.stopCounting
    { s1 with work := { s1.work with meter := { s1.work.meter with gap := some (1, a, b, unsealed) } } }

/-- Counting stops where the tick ends with the mode: the samples not counted are none of the next tick's. -/
def State.meterLeave (s : State) : State :=
  let s1 := s.meterStop false
  { s1 with modulators := { s1.modulators with pending := [] } }

/-! ## Records (R390–R392) -/

/-- The eight accumulators in the layout of R389. -/
def Meter.accWords (m : Meter) : List Word :=
  (List.range 8).flatMap fun a =>
    let v := m.accum a / 2 ^ 36
    (List.range 4).map fun i => word (v / 2 ^ (18 * i))

/-- A record of 48 words (R391). -/
def Meter.record (m : Meter) (kind len flags : Nat) (start finish : Nat × Nat) (count : Nat) : List Word :=
  let ws := [lowWord m.seq, highWord m.seq, word (fieldAt kind 16 + fieldAt len 10 + flags), 0,
    lowWord start.1, highWord start.1, word start.2, lowWord finish.1, highWord finish.1, word finish.2, lowWord count,
    highWord count] ++ m.accWords ++ [0, 0, 0]
  ws ++ [crc18 ws]

/-- Append a record to the log of 8,192 (R391). -/
def Meter.append (m : Meter) (ws : List Word) : Meter :=
  { m with seq := (m.seq + 1) % 2 ^ 36, log := Tbl.set none m.log (m.seq % 8192) (some ws) }

/-- The end boundary of an interval that began at a second: the next multiple of INTV from UTC midnight, or midnight
(R390). -/
def intervalEnd (intv sec : Nat) : Nat :=
  let day := sec / 86400 * 86400
  min (day + ((sec - day) / intv + 1) * intv) (day + 86400)

/-- Close the open interval at an instant; the next one begins at `start` with FLAGS, and ends at the next boundary after the second
`now` (R390). -/
def State.closeInterval (s : State) (finish start : Nat × Nat) (extra flags now : Nat) : State :=
  let m := s.work.meter
  if !m.open_ then s
  else
    let fl := m.flags ||| extra
    let m1 := m.append (m.record 0 (s.mtInterval / 60) fl (m.startSec, m.startSub) finish m.count)
    { s with
      work := { s.work with
        meter := { m1 with
          startSec := start.1, startSub := start.2, endSec := intervalEnd s.mtInterval now, flags := flags, count := 0
          lastInterval := m.seq } }
      modulators := { s.modulators with intvShown := true } }

/-- A gap ends with the first sample counted after it: the gap record, then the interval whose boundary fell inside the
gap, which ends early at the gap's START and so holds no gap (R392). DEDUCED: the record is written when its END is known. -/
def State.endGap (s : State) (first : Nat × Nat) : State :=
  let m := s.work.meter
  match m.gap with
  | none =>
    if m.open_ then s
    else
      { s with work := { s.work with
          meter := { m with open_ := true, startSec := first.1, startSub := first.2, endSec := intervalEnd s.mtInterval first.1, flags := 1 } } }
  | some (kind, a, b, unsealed) =>
    let ws := m.record kind 0 (if unsealed then 64 else 0) (a, b) first 0
    let s1 := ({ s with work := { s.work with meter := { m.append ws with gap := none } }
                        modulators := { s.modulators with gapShown := true } }).event 0o001_700 0 0 kind (m.seq % 2 ^ 18)
    if m.endSec ≤ first.1 then s1.closeInterval (a, b) first 1 1 first.1
    else { s1 with work := { s1.work with meter := { s1.work.meter with flags := m.flags ||| 2 } } }

/-- The samples a list brings are counted up to a boundary, or none of them when one is missing (R387). -/
def State.countSamples (s : State) (l : List MeterIn) (loss : Bool) : State :=
  let first := match l with | x :: _ => (x.sec, x.sub) | [] => s.work.meter.nextStamp
  if loss then
    let s1 := s.stopCounting
    let m := s1.work.meter
    if m.gap.isSome ∨ !m.open_ then s1
    else { s1 with work := { s1.work with meter := { m with gap := some (2, first.1, first.2, false) } } }
  else if l.isEmpty then s
  else
    let s1 := s.endGap first
    let s2 := { s1 with work := { s1.work with meter := { s1.work.meter with counting := true } } }
    l.foldl (fun s x => s.countSample x) s2

/-- Signed distance of two instants in 2⁻¹⁸ s. -/
def stampDiff (a b : Nat × Nat) : Int := ((a.1 * 2 ^ 18 + a.2 : Nat) : Int) - ((b.1 * 2 ^ 18 + b.2 : Nat) : Int)

/-- The interval at T_in (R390): a UTC step of more than 1 s, or UTC at the end boundary, closes it. -/
def State.intervalTick (s : State) : State :=
  let now := (s.field.utcSec, s.field.utcSub)
  let d := s.modulators
  let m := s.work.meter
  let rtc := if s.train.tstate < 2 then 16 else 0
  let m1 := { m with flags := if m.open_ then m.flags ||| rtc else m.flags }
  let s1 := { s with modulators := { d with utc := some now }, work := { s.work with meter := m1 } }
  let stepped := match d.utc with
    | some old => decide (2 ^ 18 < (stampDiff now old - ((s.tick.period * 2 ^ 18 / 1000000 : Nat) : Int)).natAbs)
    | none => false
  if m.gap.isSome ∨ !m.open_ then s1
  else if stepped then s1.closeInterval s.boundaryStamp s.boundaryStamp (4 + 1) 0 now.1
  else if m.endSec ≤ now.1 then s1.closeInterval s.boundaryStamp s.boundaryStamp 0 0 now.1
  else s1

/-- The boundary B of the samples counted in this tick, on a holder or a solo Keystone (R387). -/
def State.meterBoundary (s : State) : Nat :=
  (s.modulators.index + 2 ^ 35 - (s.modulators.pending.filter fun x => x.late).length) % 2 ^ 35

/-- A sample of this tick is missing (R382, R387). -/
def State.meterLoss (s : State) : Bool :=
  !s.modulators.linkA || !s.modulators.linkB || (s.modulators.pending.filter fun x => !x.late).any fun x => x.bad

/-- Count the samples of this tick up to B; those after it wait (R387, R388). -/
def State.meterCount (s : State) (b : Nat) (loss : Bool) : State :=
  let d := s.modulators
  let n := d.pending.length - (d.index + 2 ^ 35 - b) % 2 ^ 35
  let rest := (d.pending.drop n).map fun x => { x with late := false }
  let s1 := { s with modulators := { d with pending := rest, gapShown := false, intvShown := false } }
  let s2 := if s.mtEn then s1.countSamples (d.pending.take n) loss else s1.meterStop false
  let s3 := s2.intervalTick
  { s3 with work := { s3.work with meter := { s3.work.meter with boundary := b, tick := s3.tickNumber } } }

/-! ## The metering image (R389) -/

/-- A signed number in two words. -/
def signedPair (v : Int) : List Word :=
  let n := signedField 36 v
  [word n, word (n / 2 ^ 18)]

/-- The square root of a fraction rounded down or up, as a free bit decides where it is not exact. -/
def sqrtRatio (free : Word) (num den : Nat) : Nat :=
  let r := isqrt (num / den)
  r + (if r * r * den = num then 0 else flagNat (bitOf free 0))

/-- The RMS of one channel over the last 800 samples, in units of its full scale's unit. -/
def rmsOf (free : Word) (hist : List (List Int)) (c fs : Nat) : Nat :=
  let sum := ((channelHist hist c).take 800).foldl (fun a x => a + x.natAbs * x.natAbs) 0
  sqrtRatio free (sum * fs * fs) (800 * 131071 * 131071)

/-- The channel values of the samples below B, newest first (R389). -/
def State.countedHist (s : State) : List (List Int) := s.modulators.hist.drop s.modulators.pending.length

/-- RESID (R389). -/
def State.residual (s : State) : Bool :=
  let v := s.countedHist.headD []
  !bitOf s.mtCfg 15 && decide (5 * 131071 < 100 * (v.getD 3 0 + v.getD 4 0 + v.getD 5 0 + v.getD 6 0).natAbs)

/-- The 48 words of the block (R389). -/
def State.meterWords (s : State) : List Word :=
  let m := s.work.meter
  let d := s.modulators
  let hist := s.countedHist
  let f (i : Nat) : Word := Config.freeWord (s.fresh + i)
  let watts : Int := 1000 * 131071 * 131071 * 800
  [word (fieldAt (flagNat m.counting) 17 + fieldAt (flagNat d.gapShown) 16 + fieldAt (flagNat (d.linkA && d.linkB)) 15 +
     fieldAt (flagNat d.intvShown) 14 + fieldAt (flagNat s.residual) 13)] ++ m.accWords ++
    signedPair (roundFree (f 0) m.lastP watts) ++ signedPair (roundFree (f 1) m.lastQ watts) ++
    signedPair (roundFree (f 2) m.lastS watts) ++
    ((List.range 3).map fun c => word (rmsOf (f (3 + c)) hist c s.mtVfs)) ++
    ((List.range 4).map fun c => word (rmsOf (f (6 + c)) hist (3 + c) s.mtIfs)) ++
    [word (Config.frequency ((channelHist hist 0).take 800)), lowWord m.lastInterval]

/-- The metering block enters image n (R389). -/
def State.closeMeter (s : State) : State :=
  if bitOf s.mtImg 17 then { s.writeFields s.mtBase s.meterWords with fresh := s.fresh + 10 } else s

/-! ## Pulse outputs (R393) -/

/-- H in ticks. -/
def State.pulseTicks (s : State) (i : Nat) : Nat :=
  (1000 * max 1 (bitsOf (s.mtEp i) 13 6) + s.tick.period - 1) / s.tick.period

/-- The energy of one pulse × K, in 2⁻³⁶ of the unit: one kWh. -/
def pulseEnergy : Nat := 1000000 * 2 ^ 36

/-- One pulse output at T0: a pulse under way goes on, and an idle output starts one when its remainder holds it. DESIGN CHOICE: with a
new constant the remainder keeps its energy, rounded down in units of 2⁻³⁶ / K. -/
def State.pulseBoundary (s : State) (i : Nat) : State :=
  let m := s.work.meter
  let u0 := m.pulse i
  let k := s.mtEpk i
  let u := if u0.k = k then u0 else { u0 with rem := u0.rem * k / max 1 u0.k, k := k }
  let u1 := match u.ticks with
    | some n => if 2 * s.pulseTicks i ≤ n + 1 then { u with ticks := none } else { u with ticks := some (n + 1) }
    | none => u
  let u2 := if u1.ticks.isNone ∧ (s.pulseSource i).isSome ∧ pulseEnergy ≤ u1.rem then
      { u1 with ticks := some 0, rem := u1.rem - pulseEnergy } else u1
  { s with work := { s.work with meter := { m with pulses := Tbl.set {} m.pulses i u2 } } }

/-- Both pulse outputs at T0. -/
def State.pulsesBoundary (s : State) : State := (s.pulseBoundary 0).pulseBoundary 1

/-- The switch of a pulse output is closed: in the high half of a pulse, on a Keystone of no arch, or one that holds the lease or is
tracked (R393). -/
def State.pulseClosed (s : State) (i : Nat) : Bool :=
  (!s.inArch || s.holds || s.arch.tracked) && s.domainOn 8 &&
    match (s.work.meter.pulse i).ticks with | some n => decide (n < s.pulseTicks i) | none => false

/-- PULSE_END (R393): H ticks high and H ticks low have passed with the tick that runs. -/
def execPulseEnd (i : Nat) (s : State) : Out :=
  let m := s.work.meter
  let u := m.pulse i
  match u.ticks with
  | some n =>
    if i ≤ 1 ∧ 2 * s.pulseTicks i ≤ n + 1 then
      .next { s with work := { s.work with meter := { m with pulses := Tbl.set {} m.pulses i { u with ticks := none } } } }
    else .next s
  | none => .next s

/-! ## Commands (R397) -/

/-- MT_READ (R397). -/
def execMtRead (q : Req) (s : State) : Out :=
  .next (runCommand 6 0o160 1 q s fun s _ k _ =>
    let m := s.work.meter
    s.complete k { data := m.accWords ++ [lowWord m.boundary, highWord m.boundary, lowWord m.tick, highWord m.tick] })

/-- The records of the log from a SEQ upward, at most `n`, within `fuel` numbers. -/
def Meter.recordsFrom (m : Meter) (n : Nat) : Nat → Nat → List (List Word)
  | _, 0 => []
  | seq, fuel + 1 =>
    if n = 0 ∨ m.seq ≤ seq then []
    else match Tbl.get none m.log (seq % 8192) with
      | some ws => ws :: recordsFrom m (n - 1) (seq + 1) fuel
      | none => recordsFrom m n (seq + 1) fuel

/-- MT_LOG_READ (R397). -/
def execMtLogRead (q : Req) (s : State) : Out :=
  .next (runCommand 6 0o161 1 q s fun s q k _ =>
    let m := s.work.meter
    let first := max (joinNat q.desc.a0 q.desc.a1) (m.seq - 8192)
    s.complete k { data := (m.recordsFrom (clampTo 1 16 q.desc.a2.toNat) first (m.seq - first)).flatMap id })

/-- MT_SET (R397): in Stop, on a Keystone whose partner does not hold the lease. -/
def execMtSet (q : Req) (s : State) : Out :=
  .next (runCommand 6 0o162 2 q s fun s q k cred =>
    if s.md.mode ≠ .stop ∨ s.partnerHolds then s.complete k (.refused 0)
    else
      let m := s.work.meter
      let at' (i : Nat) : Nat := (q.data.getD i 0).toNat
      let v (a : Nat) : Nat := at' (4 * a) + at' (4 * a + 1) * 2 ^ 18 + at' (4 * a + 2) * 2 ^ 36 + at' (4 * a + 3) * 2 ^ 54
      let acc := (List.range 8).foldl (fun t a => Tbl.set 0 t a (v a * 2 ^ 36)) []
      let pulses := Tbl.mapEntries {} (fun _ u => { u with rem := 0 }) m.pulses
      let m1 := { m with acc := acc, pulses := pulses, flags := if m.open_ then m.flags ||| 32 else m.flags }
      (({ s with work := { s.work with meter := m1 } }).eventBy cred 0o001_702 0 0).complete k .done)

/-! ## Start and registers -/

/-- The metering interface at a start: both links lost, nothing received (R382). The first tick counts from the first
sample whose instant follows its T0, the fourth that arrives after it (R383, R387). -/
def State.meterStart (s : State) : State := { s with modulators := { index := s.modulators.index, skip := 3 } }

/-- Reset values (R396). -/
def meterReset (w : Nat) : Word :=
  if w = 0 then 0o000_005 else if w = 1 then 0o011_610 else if w = 2 then 0o047_040
  else if w ≤ 9 then 0o400_000 else if w ≤ 12 then 0
  else if w ≤ 14 then 0o002_400 else if w ≤ 16 then 0o001_750 else 0

/-- A metering register as read (R396). -/
def State.readMeter (s : State) (idx : Nat) : Word :=
  let w := idx - 0o013_000
  let d := s.modulators
  if w ≤ 17 then s.setupOr idx (meterReset w)
  else if w = 18 then
    word (fieldAt (flagNat d.linkA) 17 + fieldAt (flagNat d.linkB) 16 + fieldAt (flagNat d.align) 15 +
      fieldAt (flagNat s.work.meter.counting) 14 + fieldAt (flagNat d.ferr) 13 + fieldAt (d.ovr % 128) 6)
  else 0

/-- The value a metering register keeps of a write (R16, R396). -/
def meterValue (w : Nat) (v : Word) : Word :=
  if w = 0 then word (fieldAt (bitsOf v 17 15) 15 + clampTo 1 60 (bitsOf v 5 0))
  else if w = 1 then word (max 100 (bitsOf v 15 0))
  else if w = 2 then word (max 10 (bitsOf v 15 0))
  else if w ≤ 9 then word (clampTo 0o300_000 0o577_777 v.toNat)
  else if w ≤ 12 then word (signedField 9 (max (-255) (min 255 (signedOf 9 v.toNat))))
  else if w ≤ 14 then word (fieldAt (bitsOf v 17 14) 14 + fieldAt (max 1 (bitsOf v 13 6)) 6)
  else if w ≤ 16 then word (clampTo 1 100000 (bitsOf v 16 0))
  else word (fieldAt (bitsOf v 17 17) 17 + min 0o076_720 (bitsOf v 14 0))

/-- A write to a metering register (R396). -/
def State.writeMeter (s : State) (wr : Writer) (idx : Nat) (v : Word) : State :=
  let w := idx - 0o013_000
  if w ≤ 17 then s.writeInStop wr idx (meterValue w v)
  else if w = 18 then
    let d := s.modulators
    { s with modulators := { d with ferr := d.ferr && !bitOf v 13, ovr := d.ovr &&& (127 - bitsOf v 12 6) } }
  else s

end Sys2Proof.Machine
end

