-- ==== Sys2Proof/Machine/Identity.lean ====
section
/-!
DEFINITION. Device identity, credentials and their bindings, service sessions, anchors and revocation, image
transfer and the arming of a firmware activation (R458–R482).
-/

namespace Sys2Proof.Machine

/-! ## Credentials (R463–R466) -/

/-- A maker key is not retired by its option fuse (R461). -/
def State.makerKey (s : State) (k : Nat) : Bool := decide (k < 3) && !s.firmware.retired.testBit k

/-- A certificate is acceptable (R463, R464): its chain, exactly one role, the revocation list, its validity; a maker
credential only on the service port. -/
def State.certAccepted (s : State) (port : Bool) (c : Certificate) : Bool :=
  let chain := match c.root with
    | .anchor fp => decide (c.role = 1 ∨ c.role = 2) && s.identity.anchors.any fun e => e.2 == some fp
    | .maker k => decide (c.role = 3) && s.makerKey k && port
    | .none => false
  chain && !s.identity.revoked.contains c.fp && s.certCurrent c

/-- Record an acceptance: bound, and the validity unchecked while OSTOP is 1 (R463, R481). -/
def State.noteAccepted (s : State) (place : Nat) (c : Certificate) : State :=
  let s1 := s.credEvent 0o002_200 place c.role (certCred c)
  if s.clock.ostop then s1.credEvent 0o002_201 place 3 (certCred c) else s1

/-- A challenge: 32 octets one per nonet, whose values the spec leaves open (R11, R480). -/
def challengeWords (fresh : Nat) : List Word :=
  (List.range 16).map fun i =>
    (Config.freeWord (fresh + i) &&& 0o377_377) ||| (if i = 15 then 0o400_000 else 0)

/-- CRED_BIND (R466, R480): an acceptable credential receives a challenge; any other is refused. -/
def execCredBind (r : Nat) (q : Req) (c : Certificate) (s : State) : Out :=
  if 8 < r then .next s
  else .next (runCommand r 0o220 0 q s fun s q k _ =>
    let port := match q.origin with | .session _ => true | _ => false
    if s.certAccepted port c then
      ({ s with fresh := s.fresh + 16
                identity := { s.identity with challenges := Tbl.set none s.identity.challenges r (some c) } }).complete k
        { data := challengeWords s.fresh }
    else (s.complete k (.refused 0)).credEvent 0o002_201 (originPlace r q.origin) 1 (certCred c))

/-- CRED_PROVE (R466, R480): the signature over the challenge binds the credential to the ring. -/
def execCredProve (r : Nat) (q : Req) (ok : Bool) (s : State) : Out :=
  if 8 < r then .next s
  else .next (runCommand r 0o221 0 q s fun s q k cred =>
    let place := originPlace r q.origin
    let port := match q.origin with | .session _ => true | _ => false
    match Tbl.get none s.identity.challenges r with
    | none => (s.complete k (.refused 0)).credEvent 0o002_201 place 1 cred
    | some c =>
      let s1 := { s with identity := { s.identity with challenges := Tbl.set none s.identity.challenges r none } }
      if ok ∧ s1.certAccepted port c then
        (({ s1 with ringCreds := Tbl.set {} s1.ringCreds r (certCred c)
                    identity := { s1.identity with bound := Tbl.set none s1.identity.bound r (some c) } }).noteAccepted
          place c).complete k .done
      else (s1.complete k (.refused 0)).credEvent 0o002_201 place 1 (certCred c))

/-- CRED_UNBIND (R466). -/
def execCredUnbind (r : Nat) (q : Req) (s : State) : Out :=
  if 8 < r then .next s
  else .next (runCommand r 0o222 0 q s fun s q k cred => ((s.unbind r).changedBy cred q).complete k .done)

/-- CREDENTIAL_EXPIRY (R466): the validity of a ring's credential has ended, and with it the binding. -/
def execCredentialExpiry (r : Nat) (s : State) : Out :=
  match Tbl.get none s.identity.bound r with
  | some _ => .next (s.unbind r)
  | none => .next s

/-! ## Sessions (R468, R469) -/

/-- Whether a ticket belongs to a session. -/
def Ticket.ofSession (id : Nat) (k : Ticket) : Bool := match k.origin with | .session n => n == id | _ => false

/-- A closing session's descriptors on one ring: aborted, and counted in RG_ORPH (R469). -/
def State.abortSession (s : State) (id r : Nat) : State :=
  let g := s.ring r
  let n := (g.flight.filter (Ticket.ofSession id)).length
  s.setRing r { g with flight := g.flight.filter fun k => !Ticket.ofSession id k, orph := add18 g.orph n }

/-- The debug port closes (R165, R466): its resources are revoked. -/
def State.closeDebug (s : State) : State := { (s.revoke 3) with debugOpen := none }

/-- A session ends (R469): its descriptors abort, the debug port it holds closes, and Service it asked for ends
(R26). -/
def State.closeSession (s : State) (id : Nat) : State :=
  let s0 := { s with sessions := s.sessions.filter fun x => x.id != id
                     sessionOut := s.sessionOut.filter fun e => e.1 != id }
  let s1 : State := (List.range 9).foldl (fun (x : State) r => x.abortSession id r) (s0.withdraw (Ticket.ofSession id))
  let s2 := if s1.debugOpen = some id then s1.closeDebug else s1
  if s2.md.mode = .service ∧ s2.md.serviceSession = some id then
    s2.leaveService .leave {}
  else s2

/-- The lowest session number not in use. -/
def State.freeSession (s : State) : Nat := ((List.range 4).find? fun i => !(s.sessions.any fun x => x.id == i)).getD 4

/-- SERVICE_SESSION_OPEN (R463, R468): at most four sessions, each under an acceptable client certificate. -/
def execServiceSessionOpen (c : Certificate) (s : State) : Out :=
  if !s.domainOn 2 ∨ 4 ≤ s.sessions.length then .next s
  else if s.certAccepted true c then
    .next (({ s with sessions := s.sessions ++ [Session.mk s.freeSession c] }).noteAccepted 15 c)
  else .next (s.credEvent 0o002_201 15 1 (certCred c))

/-- SERVICE_SESSION_CLOSE (R469). -/
def execServiceSessionClose (id : Nat) (s : State) : Out :=
  if s.sessions.any fun x => x.id == id then .next (s.closeSession id) else .next s

/-- SESSION_IDLE_TIMEOUT (R468). -/
def execSessionIdleTimeout (id : Nat) (s : State) : Out :=
  if s.sessions.any fun x => x.id == id then .next (s.closeSession id) else .next s

/-- Close each session of a list. -/
def State.closeSessions (s : State) : List Nat → State
  | [] => s
  | i :: is => (s.closeSession i).closeSessions is

/-! ## Anchors and revocation (R465) -/

/-- A 72-bit fingerprint from four words, low word first (R459). -/
def fingerprint (d : Desc) : Nat := d.a0.toNat + d.a1.toNat * 2 ^ 18 + d.a2.toNat * 2 ^ 36 + d.a3.toNat * 2 ^ 54

/-- CRED_REVOKE (R465): the fingerprint joins the list, and every binding and session of that credential ends. DESIGN CHOICE: with
252 fingerprints listed, another completes REFUSED. -/
def execCredRevoke (q : Req) (s : State) : Out :=
  .next (runCommand 0 0o223 2 q s fun s q k cred =>
    let fp := fingerprint q.desc
    if !s.identity.revoked.contains fp ∧ 252 ≤ s.identity.revoked.length then s.complete k (.refused 0)
    else
      let l := if s.identity.revoked.contains fp then s.identity.revoked else s.identity.revoked ++ [fp]
      let s1 := (({ s with identity := { s.identity with revoked := l } }).changedBy cred q).complete k .done
      let hit := (List.range 9).filter fun r =>
        match Tbl.get none s1.identity.bound r with | some c => c.fp == fp | none => false
      let s2 := hit.foldl State.unbind s1
      s2.closeSessions ((s2.sessions.filter fun x => x.cert.fp == fp).map Session.id))

/-- ANCHOR_SET (R465): only in a session whose credential is accepted at the time; the last anchor cannot be cleared. -/
def execAnchorSet (q : Req) (fp : Option Nat) (s : State) : Out :=
  .next (runCommand 0 0o224 2 q s fun s q k cred =>
    match q.origin with
    | .session id =>
      let slot := min 3 q.desc.a0.toNat
      let a := Tbl.set none s.identity.anchors slot fp
      if !(s.sessions.any fun x => x.id == id && s.certAccepted true x.cert) then
        (s.complete k { status := stDenied }).credEvent 0o002_201 15 2 cred
      else if a.isEmpty then s.complete k (.refused 0)
      else (({ s with identity := { s.identity with anchors := a } }).credEvent 0o002_207 0 slot cred).complete k .done
    | _ => (s.complete k { status := stDenied }).credEvent 0o002_201 0 2 cred)

/-- ID_CERT_GET (R458). -/
def execIdCertGet (q : Req) (s : State) : Out :=
  .next (runCommand 0 0o225 0 q s fun s _ k _ => s.complete k { data := Config.deviceChain })

/-- DBG_OPEN (R466): a maker session opens or closes the debug port. -/
def execDbgOpen (q : Req) (s : State) : Out :=
  .next (runCommand 0 0o226 3 q s fun s q k cred =>
    match q.origin with
    | .session id =>
      let s1 := if bitOf q.desc.a0 0 then { s with debugOpen := some id } else if s.debugOpen.isSome then s.closeDebug else s
      (s1.changedBy cred q).complete k .done
    | _ => (s.complete k { status := stDenied }).credEvent 0o002_201 0 2 cred)

/-- The first retained page of a settings block, 0–62 (R478). -/
def retainedPage (block : Nat) : Nat := 128 + 2 * min 62 block

/-- SET_RETAINED_GET (R478): the 64 words of a retained block's valid copy; DESIGN CHOICE: of its first page where neither copy is
valid. -/
def execSetRetainedGet (q : Req) (s : State) : Out :=
  .next (runCommand 0 0o227 1 q s fun s q k _ =>
    let p := retainedPage q.desc.a0.toNat
    s.complete k { data := s.pages.page ((s.pages.used p).getD p) })

/-- SET_RETAINED_CLEAR (R480): both retained pages are written with zeros. -/
def execSetRetainedClear (q : Req) (s : State) : Out :=
  .next (runCommand 0 0o230 2 q s fun s q k cred =>
    (s.changedBy cred q).queueJob
      { owner := s.pageOwner 0 q.origin, ticket := some k
        work := .words (retainedPage q.desc.a0.toNat) 0 (List.replicate 128 0) })

/-! ## Image transfer (R470–R472) -/

/-- The valid image of a slot: false A, true B. -/
def Firmware.slot (f : Firmware) (b : Bool) : Option Manifest := if b then f.slotB else f.slotA
/-- Write a slot. -/
def Firmware.setSlot (f : Firmware) (b : Bool) (m : Option Manifest) : Firmware :=
  if b then { f with slotB := m } else { f with slotA := m }

/-- REFUSED from the update ring, with its DETAIL (R480). -/
def updRefused (detail : Nat) : Reply := { status := stRefused, detail := detail }

/-- A manifest's signature and security version (R461). -/
def State.manifestFault (s : State) (m : Manifest) : Option Nat :=
  match m.signer with
  | none => some 1
  | some k => if !s.makerKey k then some 1 else if m.svn < s.firmware.svn then some 2 else none

/-- Disarm an armed activation, with its event (R473, R481, R482). -/
def State.disarm (s : State) (w11 : Nat) (cred : Cred) : State :=
  match s.firmware.armed with
  | none => s
  | some _ => ({ s with firmware := { s.firmware with armed := none } }).credEvent 0o002_204 0 w11 cred

/-- A transfer that is unfinished. -/
def Firmware.unfinished (f : Firmware) : Option Transfer :=
  f.transfer.bind fun t => if t.verified < t.manifest.blocks then some t else none

/-- A complete, verified image has been received into the inactive slot (R473). -/
def Firmware.imageReady (f : Firmware) : Bool := f.imageIn && (f.slot !f.active).isSome

/-- Whether a program package is staging, proving, ready or armed (R470). -/
def State.packageHeld (s : State) : Bool := s.online.staged.isSome || s.online.transferred

/-- UPD_BEGIN (R469, R470). A transfer into the firmware slot disarms an activation (R482). DEDUCED: one of a program package, which
leaves the slot as it is, does not. -/
def execUpdBegin (q : Req) (m : Manifest) (s : State) : Out :=
  .next (runCommand 7 0o210 2 q s fun s q k cred =>
    let program := decide (q.desc.a0 ≠ 0)
    let inSession := match q.origin with | .session _ => true | _ => false
    let fresh (s : State) : State :=
      (({ s with firmware := { s.firmware with transfer := some ⟨m, program, 0⟩ } }).changedBy cred q).complete k { len := some 0 }
    let begin' (s : State) : State :=
      match s.firmware.unfinished with
      | some t => if t.manifest = m ∧ t.program = program then s.complete k { len := some t.verified } else fresh s
      | none => fresh s
    if program then if s.packageHeld then s.complete k (updRefused 9) else begin' s
    else if !inSession then (s.complete k { status := stDenied }).credEvent 0o002_201 (originPlace 7 q.origin) 2 cred
    else
      match s.manifestFault m with
      | some d => s.complete k (updRefused d)
      | none => begin' (s.disarm 0 cred))

/-- The mode accepts a program package (R168, R470). -/
def State.acceptsPackage (s : State) (full : Bool) : Bool :=
  match s.md.mode with
  | .stop => true
  | .run | .hold => !full
  | _ => false

/-- UPD_BLOCK (R469, R471): the next block in order is checked, written and marked; the first of a firmware image invalidates its
slot, and with it what was armed (R482). -/
def execUpdBlock (q : Req) (digestOk : Bool) (s : State) : Out :=
  .next (runCommand 7 0o211 2 q s fun s q k cred =>
    let inSession := match q.origin with | .session _ => true | _ => false
    match s.firmware.unfinished with
    | none => s.complete k (updRefused 5)
    | some t =>
      let f := s.firmware
      let last := decide (t.verified + 1 = t.manifest.blocks)
      let t1 := { t with verified := t.verified + 1 }
      if !t.program ∧ !inSession then
        (s.complete k { status := stDenied }).credEvent 0o002_201 (originPlace 7 q.origin) 2 cred
      else if q.desc.a0.toNat ≠ t.verified then s.complete k (updRefused 3)
      else if !digestOk then s.complete k (updRefused 4)
      else if t.program then
        if !last then ({ s with firmware := { f with transfer := some t1 } }).complete k .done
        else if !s.acceptsPackage t.manifest.full then s.complete k (updRefused 10)
        else
          ({ s with firmware := { f with transfer := some t1, lastBlock := some k }
                    online := { s.online with transferred := true } }).credEvent 0o002_202 1 t.manifest.blocks cred
      else
        let s1 := if t.verified = 0 then s.disarm 0 cred else s
        let f1 := s1.firmware
        let cleared := if t.verified = 0 then { f1.setSlot (!f1.active) none with imageIn := false } else f1
        if last then
          (({ s1 with firmware := { (cleared.setSlot (!f.active) (some t.manifest)) with transfer := some t1, imageIn := true } }).credEvent
            0o002_202 0 t.manifest.blocks cred).complete k .done
        else ({ s1 with firmware := { cleared with transfer := some t1 } }).complete k .done)

/-! ## Arming an activation (R473, R474) -/

/-- UTC as the image's source gives it (R311): of the latest latch while the tick runs, else the clock's. -/
def State.utcNow (s : State) : Nat := if s.md.mode.ticks then s.field.utcSec else s.clock.sec

/-- UP_CFG.GROUP (R479). -/
def State.updGroup (s : State) : Nat := bitsOf (s.setupOr 0o014_403 0) 11 0

/-- UPD_SCHEDULE (R473). -/
def execUpdSchedule (q : Req) (s : State) : Out :=
  .next (runCommand 7 0o212 2 q s fun s q k cred =>
    let at_ := joinNat q.desc.a0 q.desc.a1
    let window := 60 * clampTo 1 1440 q.desc.a2.toNat
    let group := min 4095 q.desc.a3.toNat
    if !s.firmware.imageReady then s.complete k (updRefused 5)
    else if group ≠ 0 ∧ s.updGroup ≠ 0 ∧ group ≠ s.updGroup then s.complete k (updRefused 6)
    else if s.clock.ostop ∧ s.train.tstate ≠ 2 then s.complete k (updRefused 7)
    else if at_ + window ≤ s.utcNow then s.complete k (updRefused 8)
    else
      (({ s with firmware := { s.firmware with armed := some ⟨at_, window⟩, shownAt := at_ } }).changedBy cred q).complete k .done)

/-- UPD_CANCEL (R473, R480): disarms, and with A0 bit 0 discards the image received or being received. -/
def execUpdCancel (q : Req) (s : State) : Out :=
  .next (runCommand 7 0o213 2 q s fun s q k cred =>
    let s1 := s.disarm 0 cred
    let f := s1.firmware
    let s2 :=
      if bitOf q.desc.a0 0 then
        let f1 := if f.imageReady then f.setSlot (!f.active) none else f
        ({ s1 with firmware := { f1 with transfer := none, imageIn := false } }).changedBy cred q
      else s1
    s2.complete k .done)

/-- The activation's window has passed at a UTC second (R474). -/
def ArmedUpdate.passed (a : ArmedUpdate) (utc : Nat) : Bool := decide (a.at_ + a.window ≤ utc)

/-- At a boundary past its window an armed activation is disarmed (R474, R482). -/
def State.expireActivation (s : State) (utc : Nat) : State :=
  match s.firmware.armed with
  | some a => if a.passed utc && !s.firmware.activating then s.disarm 1 {} else s
  | none => s

/-- ACTIVATION_WINDOW_END (R474): the activation is disarmed, the image stays in place. -/
def execActivationWindowEnd (s : State) : Out :=
  if s.firmware.activating then .next s else .next (s.disarm 1 {})

/-- An armed activation takes effect at this boundary (R474): UTC is at or after s, in Stop, or in Run with ROLE 1 and
the committed update-permitted bit; a configured arch follows R261. -/
def State.updateDue (s : State) (utc : Nat) : Bool :=
  match s.firmware.armed with
  | none => false
  | some a =>
    decide (a.at_ ≤ utc) && !a.passed utc && s.firmware.imageReady &&
      (decide (s.md.mode = .stop) || (decide (s.md.mode = .run) && decide (s.role = 1) && bitOf (s.outWord 0o077_020) 0))

/-! ## Registers (R479) -/

/-- Version word of a slot: MAJ and MIN, 0 while invalid. -/
def versionWord (m : Option Manifest) : Nat := match m with | some x => x.major % 512 * 512 + x.minor % 512 | none => 0

/-- UP_STAT.STATE (R479). -/
def State.updState (s : State) : Nat :=
  if s.firmware.activating then 4
  else if s.firmware.armed.isSome then 3
  else if s.firmware.unfinished.isSome then 1
  else if s.firmware.imageReady then 2
  else 0

/-- An identity or update register as read (R479). -/
def State.readUpdate (s : State) (idx : Nat) : Word :=
  let f := s.firmware
  if idx = 0o014_400 then
    let (kind, blk) := match f.unfinished with
      | some t => (flagNat t.program, min 4096 t.verified)
      | none => (0, if f.imageReady then min 4096 ((f.slot !f.active).elim 0 Manifest.blocks) else 0)
    word (fieldAt s.updState 15 + fieldAt kind 14 + blk)
  else if idx = 0o014_401 then lowWord f.shownAt
  else if idx = 0o014_402 then highWord f.shownAt
  else if idx = 0o014_403 then word s.updGroup
  else if idx = 0o014_404 then
    word (fieldAt (flagNat f.slotA.isSome) 5 + fieldAt (flagNat f.slotB.isSome) 4 + fieldAt (flagNat f.trial) 3 +
      fieldAt (min 3 f.tries) 1 + flagNat f.active)
  else if idx = 0o014_405 then word (versionWord f.slotA)
  else if idx = 0o014_406 then word (versionWord f.slotB)
  else if idx = 0o014_407 then word (fieldAt (f.retired % 8) 6 + f.svn % 64)
  else if 0o014_410 ≤ idx ∧ idx ≤ 0o014_413 then Config.deviceFp (idx - 0o014_410)
  else if 0o014_420 ≤ idx ∧ idx ≤ 0o014_430 then
    let c := s.ringCred (idx - 0o014_420)
    word (fieldAt c.role 16 + c.fp)
  else 0

/-- A write to the block (R479): UP_CFG with installer rights in any mode. -/
def State.writeUpdate (s : State) (w : Writer) (idx : Nat) (v : Word) : State :=
  if idx = 0o014_403 then s.writeWith w 2 idx (v &&& 0o007_777) else s

end Sys2Proof.Machine
end

