-- ==== Sys2Proof/Machine/Arch.lean ====
section
/-!
DEFINITION. The arch (R235–R245, R249–R252, R260–R264): pairing, synchronisation, heartbeats, the lease, release and
dismissal, and the health report. The ledger's building and its completion on a standby are in Machine/Image.lean.
-/

namespace Sys2Proof.Machine

/-- ALIVE_OUT (R236): high while PD1 is powered, the watchdog has not expired and nothing silences the Keystone. -/
def State.aliveOut (s : State) : Bool :=
  s.md.mode.powered && s.domainOn 1 && !s.watchdog.expired && !s.arch.silenced && !s.firmware.failed

/-! ## The epoch (R240) -/

/-- The least value above a number whose bit 0 is a side. -/
def claimAbove (n side : Nat) : Nat := if (n + 1) % 2 = side then n + 1 else n + 2

/-- The epoch a claim takes, none when no value of the parity remains (R240). -/
def State.claimed (s : State) : Option Nat :=
  let e := claimAbove (max s.arch.epoch (max s.arch.peerEpoch s.arch.maxSepoch)) s.side
  if e < 2 ^ 36 then some e else none

/-- Claim a new epoch; a claim that fails ends the Keystone in Stop (R240). -/
def State.claim (s : State) : State :=
  match s.claimed with
  | some e => { s with arch := { s.arch with epoch := e } }
  | none => { s with md := { s.md with stopDue := true } }

/-! ## Pairing (R237, R238) -/

/-- The fingerprint of AR_PEER0–AR_PEER3 in effect, low word first (R263). -/
def State.arPeer (s : State) : Nat :=
  (List.range 4).foldl (fun n i => n + (s.setupTickOr (0o000_606 + i) 0).toNat * 2 ^ (18 * i)) 0

/-- Code 5 does not arise (R231, R237): SL_ETYPE, SL_CFGk but END and the station table agree, and each Keystone's ring ENDs are
its SIDE. -/
def State.linksEqual (s : State) (p : PairingFacts) : Bool :=
  let cfg (k : Nat) : Word := p.linkCfg.getD k 0o000_003
  p.etype == s.slEtype &&
    ((List.range 16).all fun k =>
      decide (cfg k &&& 0o737_777 = s.slCfg k &&& 0o737_777) &&
        (!s.linkRing k || (flagNat (s.linkEnd k) == s.side && bitOf (cfg k) 14 == p.side))) &&
    ((List.range 1024).all fun i => decide (s.setupTickOr (0o002_000 + i) 0 = Tbl.get 0 p.stations i))

/-- Code 6 does not arise (R137, R237): the Keystone that joins runs every tile the holder's tables name, and level and course
format agree. -/
def State.tilesPair (s : State) (p : PairingFacts) : Bool :=
  let named := (List.range s.tileCount).filter fun t => !(s.mem t).run.isEmpty || !(s.mem t).start.isEmpty
  p.level == tileFeature 0 (s.mem 0) 0 && (if s.holds then named.all fun t => decide (t < p.tiles) else p.tableTiles.all fun t => decide (t < s.tileCount))

/-- The first failing item (R237). -/
def State.pairingFault (s : State) (p : PairingFacts) : Option Nat :=
  let setup := s.work.setup
  if !p.verifies || p.fingerprint != s.arPeer then some 1
  else if !p.levelOk then some 2
  else if !s.inArch || !p.arch || flagNat p.side == s.side then some 3
  else if p.period != setup.period || p.latch != setup.latch || p.inwin != setup.inwin || p.lock != setup.lock then some 4
  else if !s.linksEqual p then some 5
  else if !s.tilesPair p then some 6
  else none

/-- A holder whose partner is no longer tracked (R244). -/
def State.untrack (s : State) : State :=
  if s.arch.lstate = 5 then
    ({ s with arch := { s.arch with lstate := 6, tracked := false, dirtyLeft := none }, online := { s.online with archReady := false } } :
      State).settleForwards
  else s

/-- A standby that is no longer tracked returns to LSTATE 1 and synchronises again (R250): the write sets it holds are of a state
that the copy replaces (R239). -/
def State.resync (s : State) : State :=
  { s with arch := { s.arch with lstate := 1, tracked := false, dirtyLeft := none, syncDone := false }
           work := { s.work with pendingSets := [] } }

/-- PAIRING (R237, R238): on each arch link that comes up, and at step 7. A partner that cannot pair on its new firmware
ends the holder's own activation (R261). -/
def execPairing (p : PairingFacts) (s : State) : Out :=
  if !s.md.mode.powered ∨ !s.domainOn 2 ∨ (!p.linkA && !p.linkB) then .next s
  else
    match s.pairingFault p with
    | some code =>
      let s1 := (s.untrack).event 0o001_202 0 0 code 0
      let s1 := if s1.firmware.marked then { s1.disarm 0 {} with firmware := { (s1.disarm 0 {}).firmware with marked := false } } else s1
      let s2 := if s1.md.mode = .track then { s1 with md := { s1.md with stopDue := true } } else s1
      .next { s2 with arch := { s2.arch with paired := false, pairErr := code, aup := false, bup := false } }
    | none =>
      let a := s.arch
      let loses := decide (s.md.mode = .start) && !s.holds && !s.partnerHolds &&
        (decide (a.epoch < p.epoch) || (a.epoch == p.epoch && s.side == 1))
      .next { s with arch := { a with
        paired := true, aup := a.aup || p.linkA, bup := a.bup || p.linkB
        adly := if p.linkA then min 15 p.delayA else a.adly
        bdly := if p.linkB then min 15 p.delayB else a.bdly
        peerEpoch := p.epoch, electing := loses } }

/-- ARCH_LINK_DOWN (R260): AUP or BUP falls; with both links down the Keystones are no longer paired. -/
def execArchLinkDown (linkB : Bool) (s : State) : Out :=
  let a := s.arch
  let up := if linkB then a.aup else a.bup
  .next { s with arch := { a with aup := a.aup && linkB, bup := a.bup && !linkB, paired := a.paired && up } }

/-- ALIVE_IN_CHANGE (R236). -/
def execAliveInChange (high : Bool) (s : State) : Out := .next { s with arch := { s.arch with aliveIn := high } }

/-! ## Heartbeats (R242–R245) -/

/-- A heartbeat's six words (R242). -/
def heartbeatWords (h : Heartbeat) : List Word :=
  [word (fieldAt h.mode 14 + fieldAt h.lstate 11 + fieldAt (flagNat h.side) 10 + fieldAt (flagNat h.rel) 9 +
     fieldAt (flagNat h.syn) 8), lowWord h.tick, highWord h.tick, lowWord h.phase, highWord h.phase, word h.epl]

/-- The transitions that make a holder give up the lease at the boundary are decided (R251). -/
def State.releaseDue (s : State) : Bool :=
  s.holds && (match s.md.mode with | .run | .hold | .takeover => true | _ => false) &&
    (s.md.safeDue || s.md.sealDue || s.arch.release.isSome)

/-- This Keystone's heartbeat. -/
def State.heartbeat (s : State) (phase : Nat) : Heartbeat :=
  ⟨s.md.mode.code, s.arch.lstate, s.side == 1, s.releaseDue && s.arch.lstate == 5, s.arch.tracked, s.tickNumber,
    phase % 2 ^ 36, s.arch.epoch % 2 ^ 18⟩

/-- HEARTBEAT_SEND (R242): every 2 µs while ALIVE_OUT is high. -/
def execHeartbeatSend (phase : Nat) (s : State) : Out :=
  if !s.aliveOut ∨ !s.domainOn 2 then .next s
  else .next { s with arch := { s.arch with beat := heartbeatWords (s.heartbeat phase) } }

/-- A tracked standby claims the lease (R244, R255). -/
def State.enterClaim (s : State) (cause : Nat) (boundary : Option Nat) : State :=
  ({ s with arch := { s.arch with lstate := 4, takeover := some ⟨cause, boundary⟩, tracked := false } }).claim

/-- A handover marker received moves a standby in LSTATE 2 to LSTATE 4 (R244, R252). -/
def State.followHandover (s : State) : State :=
  match s.arch.modeMark with
  | some (2, b) => if s.arch.lstate = 2 ∧ s.arch.ledgerDone then s.enterClaim 2 (some b) else s
  | _ => s

/-- The least number not below a known one with the given low 18 bits. -/
def leastWithLow (known low : Nat) : Nat :=
  let n := known / 2 ^ 18 * 2 ^ 18 + low % 2 ^ 18
  if known ≤ n then n else n + 2 ^ 18

/-- A lease state that holds (R243). -/
def leaseHeld (lstate : Nat) : Bool := decide (4 ≤ lstate) && decide (lstate ≤ 6)

/-- HEARTBEAT_RECEIPT (R242, R244, R251): the partner's view is updated; a silent standby hears again, a silenced Keystone
whose partner has claimed ends its silence, and a holder learns that its partner has left Track. -/
def execHeartbeatReceipt (_linkB : Bool) (h : Heartbeat) (s : State) : Out :=
  if !s.md.mode.powered ∨ !s.domainOn 2 then .next s
  else
    let a := s.arch
    let s1 := { s with arch := { a with
      heard := true, peer := some h
      peerEpoch := leastWithLow a.peerEpoch h.epl
      lstate := if a.lstate = 3 then 2 else a.lstate
      silenced := a.silenced && !leaseHeld h.lstate } }
    .next (if h.lstate = 0 ∨ h.lstate = 7 then s1.untrack else s1.followHandover)

/-- HEARTBEAT_SILENCE (R244). -/
def execHeartbeatSilence (s : State) : Out :=
  if s.arch.lstate = 2 then .next { s with arch := { s.arch with lstate := 3 } } else .next s

/-- The partner is declared lost (R245): nothing is heard, the event is recorded, identity 4 loses its resources. A
synchronisation of it under way is over. -/
def State.losePartner (s : State) : State :=
  let s1 := { s with arch := { s.arch with heard := false, dirtyLeft := none } }
  (s1.event 0o001_201 0 0 s.arch.lstate 0).revoke 4

/-- The lease, held by the partner, ends by expiry (R165, R166): its reclaimed mark names identity 4, and the event is recorded. -/
def State.revokeLease (s : State) : State :=
  ({ s with arch := { s.arch with leasePrev := some 4 } }).reclaimed 5 0 4

/-- A standby's partner is lost (R243–R245, R239): a tracked standby in LSTATE 3 claims with ALIVE_IN low and is LOST with it
high; a joining one goes to Stop. -/
def State.leaseExpiry (s : State) : State :=
  let s1 := s.losePartner
  if s.arch.lstate = 3 then
    if s.arch.aliveIn then
      { s1 with arch := { s1.arch with lstate := 7 }, md := { s1.md with stopDue := true } }
    else s1.revokeLease.enterClaim 0 none
  else { s1 with md := { s1.md with stopDue := true } }

/-- PARTNER_LOST (R245, R238): 24 µs without a heartbeat on a Keystone that does not track. -/
def execPartnerLost (s : State) : Out :=
  if s.md.mode = .track ∨ !s.arch.heard then .next s
  else
    let s1 := s.losePartner.untrack
    .next (({ s1 with arch := { s1.arch with electing := false } }).settleForwards)

/-! ## Synchronisation (R239, R426) -/

/-- A force entry from its eight words (R182). -/
def forceOf (ws : List Word) : Force :=
  let w (i : Nat) : Word := ws.getD i 0
  ⟨bitOf (w 0) 17, bitOf (w 0) 16, bitsOf (w 0) 14 0, bitsOf (w 1) 4 0, w 2, joinNat (w 3) (w 4), w 5, bitsOf (w 6) 17 16,
    bitsOf (w 6) 15 0⟩

/-- Store consecutive words of a tile memory. -/
def State.writeMany (s : State) (code : Bool) (t a : Nat) : List Word → State
  | [] => s
  | w :: ws => (if code then s.writeCode t a w else s.writeData t a w).writeMany code t (a + 1) ws

/-- Put words into an image as they stand on the holder: AREA 0 input, 1 output, 2 exchange. -/
def State.syncImage (s : State) (area i : Nat) (ws : List Word) : State :=
  let m := s.work.mortar
  let m1 := match area with
    | 0 => { m with input := Tbl.setMany 0 m.input i ws, inputField := Tbl.setMany 0 m.inputField i ws }
    | 1 => { m with out := Tbl.setMany 0 m.out i ws }
    | _ => { m with exch := Tbl.setMany 0 m.exch i ws }
  (List.range ws.length).foldl (fun s j => s.dirty (mortarLine area (i + j))) (s.setMortar m1)

/-- The index of this Keystone's next sample, from the holder's index and stamp of one of its samples: the two are one sample where
their stamps lie within 62.5 µs of each other (R388). -/
def State.sampleIndex (s : State) (index : Nat) (stamp : Int) : Nat :=
  ((((index : Nat) : Int) + 1 + (s.modulators.stamp - stamp + 62500) / 125000) % (2 ^ 35 : Nat)).toNat

/-- Apply one item of a pass. -/
def State.syncItem (s : State) : SyncItem → State
  | .data t a ws => s.writeMany false t a ws
  | .code t a ws => s.writeMany true t a ws
  | .image area i ws => s.syncImage area i ws
  | .program p => { s with work := { s.work with program := p }, pages := { s.pages with appendDue := true } }
  | .tables t lo hi run start =>
    s.setMem t { s.mem t with run := run, start := start, sblo := BitVec.ofNat 17 lo, sbhi := BitVec.ofNat 17 hi }
  | .tasks overruns errNow errLast new inaug =>
    { s with work := { s.work with overruns := overruns.foldl (fun t o => Tbl.set 0 t o.1 o.2) [], errNow := errNow
                                   errLast := errLast, newTriggers := new, inaugCount := inaug } }
  | .forces l => { s with work := { s.work with forces := l.map forceOf } }
  | .count n => { s with work := { s.work with count := n } }
  | .counter k v serial => s.queueJob { owner := 4, ticket := none, work := .cell k v serial }
  | .metering acc pulses window last interval seq lastInterval log index stamp =>
    let put (t : Tbl Nat) (i : Nat) : Tbl Nat := Tbl.set 0 t i (acc.getD i 0)
    let m := s.work.meter
    let pulse (t : Tbl Pulse) (i : Nat) : Tbl Pulse :=
      match pulses[i]? with
      | some (ticks, rem, k) => Tbl.set {} t i ⟨ticks, rem, k⟩
      | none => t
    let base := seq - log.length
    let logs := (List.range log.length).foldl (fun t i => Tbl.set none t ((base + i) % 8192) (some (log.getD i []))) m.log
    let m1 := { m with acc := (List.range 8).foldl put m.acc, window := window.take 800, pulses := [0, 1].foldl pulse m.pulses,
                       sec := last.1, sub := last.2, seq := seq, lastInterval := lastInterval, log := logs, gap := none }
    let m2 := match interval with
      | some (a, b, e, fl, n) => { m1 with open_ := true, startSec := a, startSub := b, endSec := e, flags := fl, count := n }
      | none => { m1 with open_ := false }
    { s with work := { s.work with meter := m2 }
             modulators := { s.modulators with index := s.sampleIndex index stamp, pending := [] } }

/-- The memories that the first pass of a synchronisation copies in full start from 0 (R239). -/
def State.clearForCopy (s : State) : State :=
  let m := s.work.mortar
  let s1 := ((s.dirtyKeys (mortarLine 0) (Tbl.keys m.input)).dirtyKeys (mortarLine 1) (Tbl.keys m.out)).dirtyKeys (mortarLine 2)
    (Tbl.keys m.exch)
  let s2 := (List.range s.tileCount).foldl (fun (s : State) t =>
    let x := s.mem t
    ((s.dirtyKeys (codeLine t) (Tbl.keys x.code)).dirtyKeys (dataLine t) (Tbl.keys x.data)).setMem t { x with code := [], data := [] }) s1
  s2.setMortar {}

/-- The eight words of a line, as an item of a pass (R73, R239). -/
def State.lineItem (s : State) (line : Nat) : SyncItem :=
  let region := line / 2 ^ 14
  let a := line % 2 ^ 14 * 8
  let m := s.work.mortar
  match region with
  | 0 => .image 0 a (Tbl.getMany 0 m.inputField a 8)
  | 1 => .image 1 a ((List.range 8).map fun i => m.outNow (a + i))
  | 2 => .image 2 a ((List.range 8).map fun i => s.readVar 2 0 (a + i))
  | _ => if region % 2 = 1 then .code ((region - 3) / 2) a (Tbl.getMany 0 (s.mem ((region - 3) / 2)).code a 8)
         else .data ((region - 4) / 2) a (Tbl.getMany 0 (s.mem ((region - 4) / 2)).data a 8)

/-- Every line that holds a word other than 0: what a pass in full copies. -/
def State.allLines (s : State) : List Nat :=
  let m := s.work.mortar
  let mark (line : Nat → Nat) (t : Tbl Bool) (ks : List Nat) : Tbl Bool := ks.foldl (fun t k => Tbl.set false t (line k) true) t
  let t1 := mark (mortarLine 0) [] (Tbl.keys m.inputField)
  let t2 := mark (mortarLine 1) (mark (mortarLine 1) t1 (Tbl.keys m.out)) (Tbl.keys m.outNew)
  let t3 := mark (mortarLine 2) (mark (mortarLine 2) t2 (Tbl.keys m.exch)) (Tbl.keys m.exchNew)
  Tbl.keys ((List.range s.tileCount).foldl (fun t i =>
    mark (dataLine i) (mark (codeLine i) t (Tbl.keys (s.mem i).code)) (Tbl.keys (s.mem i).data)) t3)

/-- What one pass of the holder copies (R239, R426): every line at first, then those dirtied since the last pass, and with each
pass what is small. -/
def State.passItems (s : State) : List SyncItem :=
  let w := s.work
  let lines := if s.arch.dirtyLeft.isNone then s.allLines else Tbl.keys s.persist.copyDirty
  let log := (List.range (min w.meter.seq 8192)).map fun i =>
    (Tbl.get none w.meter.log ((w.meter.seq - min w.meter.seq 8192 + i) % 8192)).getD []
  let counters := (Tbl.keys s.pages.counters).filterMap fun c => (s.pages.counterDef c).map fun d =>
    let v := s.pages.counterAt d.1 d.2
    SyncItem.counter c v.1 v.2
  lines.map s.lineItem ++ [.program w.program] ++
    ((List.range s.tileCount).map fun t =>
      let m := s.mem t
      SyncItem.tables t m.sblo.toNat m.sbhi.toNat m.run m.start) ++
    [.tasks w.overruns w.errNow w.errLast w.newTriggers w.inaugCount, .forces (w.forces.map Force.words), .count w.count] ++
    counters ++
    [.metering ((List.range 8).map (Tbl.get 0 w.meter.acc))
      ((List.range 2).map fun i => let u := w.meter.pulse i; (u.ticks, u.rem, u.k)) w.meter.window (w.meter.sec, w.meter.sub)
      (if w.meter.open_ then some (w.meter.startSec, w.meter.startSub, w.meter.endSec, w.meter.flags, w.meter.count) else none)
      w.meter.seq w.meter.lastInterval log ((s.modulators.index + 2 ^ 35 - 1) % 2 ^ 35) s.modulators.stamp]

/-- The partner synchronises, as last heard (R239). -/
def State.partnerJoins (s : State) : Bool := match s.arch.peer with | some h => h.lstate == 1 | none => false

/-- SYNCHRONISATION_PASS (R239): a joining Keystone takes what the holder copies, and knows how many lines the pass left dirty; the
holder copies, and what is dirtied from then on is left for the next pass. -/
def execSynchronisationPass (items : List SyncItem) (dirtyLeft : Nat) (s : State) : Out :=
  if !s.archOn then .next s
  else if s.arch.lstate = 1 then
    let s1 := if s.arch.dirtyLeft.isNone then s.clearForCopy else s
    let s2 := items.foldl (fun (x : State) i => x.syncItem i) s1
    .next { s2 with arch := { s2.arch with dirtyLeft := some dirtyLeft } }
  else if s.arch.lstate = 6 ∧ s.partnerJoins then
    .next { s with arch := { s.arch with passOut := s.passItems, dirtyLeft := some 0 }, persist := { s.persist with copyDirty := [] } }
  else .next s

/-- A counter cell of a pass is still to be written (R426). -/
def State.cellsOpen (s : State) : Bool :=
  s.pages.jobs.any fun j => match j.work with | .cell _ _ _ => true | _ => false

/-- The metering set-up of both Keystones agrees (R388, R396). -/
def State.meterAgrees (s : State) (setup : List Word) : Bool :=
  (List.range 18).all fun i => s.readMeter (0o013_000 + i) == setup.getD i (meterReset i)

/-- SYNCHRONISATION_COMPLETE (R239, R388): at the boundary after a pass that left nothing dirty the joining Keystone is tracked. While
its metering set-up differs from its partner's it is not, and the event is recorded. -/
def execSynchronisationComplete (ms : Nat) (meterSetup : List Word) (s : State) : Out :=
  let a := s.arch
  let m := s.work.mortar
  if !s.archOn ∨ a.dirtyLeft ≠ some 0 ∨ s.cellsOpen then .next s
  else if a.lstate = 1 then
    if !s.meterAgrees meterSetup then .next (s.event 0o001_703 0 0 0 0)
    else
      .next { s with arch := { a with lstate := 2, tracked := true, syncDone := true, syncMs := ms, entries := [], ledgerDone := false }
                     work := { s.work with pendingSets := [], mortar := { m with input := applyForces false m.inputField s.work.forces } } }
  else if a.lstate = 6 ∧ s.persist.copyDirty.isEmpty ∧ s.meterAgrees meterSetup then
    .next (({ s with arch := { a with lstate := 5, tracked := true, syncMs := ms, acked := false, ledgerSent := false, dirtyLeft := none } }).event
      0o001_203 0 0 ms 0)
  else .next s

/-! ## Acknowledgement, dismissal, release (R249–R252) -/

/-- A time in 10 ns as AR_LAG holds it. -/
def lagOf (n : Nat) : Nat := min 0o777_777 n

/-- LEDGER_ACK_RECEIPT (R249, R250): a good acknowledgement permits the emission; a diverged one untracks the partner. -/
def execLedgerAckReceipt (good : Bool) (tick lag : Nat) (s : State) : Out :=
  let a := s.arch
  if a.lstate ≠ 5 ∨ !s.domainOn 2 ∨ !a.ledgerSent ∨ tick ≠ s.tickNumber then .next s
  else
    let s1 := { s with arch := { a with lag := lagOf lag, lagMax := max a.lagMax (lagOf lag), acked := good } }
    if good then .next s1 else .next (s1.untrack.event 0o001_205 0 0 1 0)

/-- LEDGER_REQUEST (R249): the standby asks for the ledger again, whole; the holder sends it again. -/
def execLedgerRequest (s : State) : Out :=
  let a := s.arch
  if !s.domainOn 2 then .next s
  else if a.lstate = 2 ∧ !a.ledgerDone then .next { s with arch := { a with entries := [], rerequested := true } }
  else if a.lstate = 5 ∧ a.ledgerSent then .next { s with arch := { a with rerequested := true } }
  else .next s

/-- DISMISSAL_RECEIPT (R250). -/
def execDismissalReceipt (_tick : Nat) (s : State) : Out :=
  if (s.arch.lstate = 2 ∨ s.arch.lstate = 3) ∧ s.domainOn 2 then .next (s.resync.event 0o001_205 0 0 0 0) else .next s

/-- RELEASE_ACK_RECEIPT (R251): before the boundary named, the notice is acknowledged. -/
def execReleaseAckReceipt (s : State) : Out :=
  if s.arch.lstate = 5 ∧ s.releaseDue ∧ s.domainOn 2 then
    .next { s with arch := { s.arch with release := some ((s.tickNumber + 1) % Config.tickModulus, true) } }
  else .next s

/-- ARMED_TICK_RECEIPT (R175): the standby shows the tick an ACTIVATE on the primary armed, or clears it. -/
def execArmedTickReceipt (tick : Option Nat) (s : State) : Out :=
  if s.md.mode ≠ .track ∨ !s.domainOn 2 then .next s
  else
    let o := s.online
    let staged (n : Nat) : Option Staged := o.staged.map fun g => if 3 ≤ g.state then { g with state := n } else g
    match tick with
    | some a => .next { s with online := { o with sched := true, atk := a % 2 ^ 36, staged := staged 4 } }
    | none => .next { s with online := { o with sched := false, staged := staged 3 } }

/-! ## Bond summaries (R155, R160) -/

/-- BD_NORES: bit d for each die of the package without a reserve bond (R155). -/
def State.noReserve (s : State) : Nat :=
  (List.range s.dieCount).foldl (fun n i => n + (if (s.die (i + 1)).reserve.isNone then 2 ^ (i + 1) else 0)) 0

/-- Whether a bond is retired. -/
def Bond.isRetired (b : Bond) : Bool := match b.state with | .retired => true | _ => false
/-- Whether a bond is under test. -/
def Bond.isTesting (b : Bond) : Bool := match b.state with | .testing => true | _ => false

/-- BD_RET: retired bonds in the package. -/
def State.retiredBonds (s : State) : Nat :=
  (List.range s.dieCount).foldl (fun n i =>
    n + ((List.range 4).filter fun p => ((s.die (i + 1)).bond p).isRetired).length) 0

/-- BD_MIG: migrations on all dies, 36 bits. -/
def State.migrations (s : State) : Nat :=
  (List.range s.dieCount).foldl (fun n i => n + (s.die (i + 1)).migrations) 0 % 2 ^ 36

/-- The record of one die (R160). -/
def State.dieRecord (s : State) (d : Nat) : List Word :=
  let x := s.die d
  let ps := List.range 4
  let stateField (p : Nat) : Nat :=
    match (x.bond p).state with
    | .running slot => fieldAt slot (4 * p + 2)
    | .free => fieldAt 1 (4 * p)
    | .testing => fieldAt 2 (4 * p)
    | .retired => fieldAt 3 (4 * p)
  let sum (f : Nat → Nat) : Nat := (ps.map f).foldl (· + ·) 0
  [word (fieldAt (flagNat (ps.any fun p => (x.bond p).isTesting)) 4 + fieldAt (flagNat x.reserve.isSome) 3 + d),
   word (sum stateField),
   word (sum fun p => fieldAt (min 15 (countedTransients x.hours (x.bond p).transients).length) (4 * p)),
   word (sum fun p => fieldAt ((x.bond p).cause % 8) (3 * p)),
   lowWord x.migrations, highWord x.migrations, lowWord x.correctable, highWord x.correctable]

/-! ## The health report (R260, R264) -/

/-- Whole days since the last complete scrub pass (R418). -/
def State.scrubDays (s : State) : Nat := min 0o777_777 ((s.clock.sec - s.pages.scrubAt) / 86400)

/-- A feed is absent or out of range. -/
def feedBad (c : FeedClass) : Bool := c != .inRange

/-- FLAGS of w4 (R260). -/
def State.healthFlags (s : State) (f : HealthFacts) : Nat :=
  let a := s.arch
  let bits : List Bool :=
    [s.noReserve != 0, decide (a.retiredSeen < s.retiredBonds), f.scru != 0, feedBad s.power.feedA, feedBad s.power.feedB,
     s.inArch && (!a.aup || f.errA != 0), s.inArch && (!a.bup || f.errB != 0), decide (600 < a.lagMax),
     decide (31 < s.scrubDays), s.clock.ostop || decide (1000 < f.osc.natAbs), decide (f.bkh < 240), a.heard && !a.aliveIn,
     !s.power.srok, s.inArch && !a.tracked]
  (List.range 14).foldl (fun n i => n + (if bits.getD i false then 2 ^ i else 0)) 0

/-- The 96 words of a report (R260). -/
def State.healthWords (s : State) (f : HealthFacts) : List Word :=
  let a := s.arch
  let sat (n : Nat) : Word := word (min 0o777_777 n)
  let dies := (List.range 7).flatMap fun i => if i < s.dieCount then s.dieRecord (i + 1) else List.replicate 8 0
  let ws : List Word :=
    [lowWord a.reportSeq, highWord a.reportSeq, lowWord s.utcNow, highWord s.utcNow, word (s.healthFlags f),
     word (fieldAt s.retiredBonds 9 + s.noReserve), lowWord f.scrc, highWord f.scrc, sat f.scru, sat s.power.voltsA,
     sat s.power.voltsB, sat s.power.hold, sat f.errA, sat f.errB, word (fieldAt (min 511 f.gapA) 9 + min 511 f.gapB),
     sat a.lagMax, sat a.ledgerMax, sat s.scrubDays, sat s.pages.ref, word (saturate18 f.osc), sat f.bkh, 0, 0, 0] ++
    dies ++ List.replicate 15 0
  ws ++ [crc18 ws]

/-- HEALTH_REPORT (R260, R435): once per second; the first report below 240 h of backup records its event. -/
def execHealthReport (f : HealthFacts) (s : State) : Out :=
  if !s.md.mode.powered ∨ !s.recorder.open_ then .next s
  else
    let a := s.arch
    let low := decide (f.bkh < 240)
    let s1 := if low ∧ !a.backupLow then s.event 0o002_105 0 0 f.bkh 0 else s
    .next { s1 with arch := { a with
      report := s.healthWords f, reportSeq := (a.reportSeq + 1) % 2 ^ 36, peerAge := min 3 (a.peerAge + 1)
      lagMax := 0, ledgerMax := 0, retiredSeen := s.retiredBonds, backupLow := low } }

/-- HEALTH_REPORT_RECEIPT (R260). -/
def execHealthReportReceipt (words : List Word) (s : State) : Out :=
  if !s.arch.paired ∨ !s.domainOn 2 then .next s
  else .next { s with arch := { s.arch with peerReport := fitWords 96 words, peerAge := 0 } }

/-- The partner's latest report, when it arrived within 2 s (R260). -/
def State.peerHealth (s : State) : Option (List Word) :=
  if s.arch.peerReport.isEmpty ∨ 2 < s.arch.peerAge then none else some s.arch.peerReport

/-- HEALTH_GET (R264). -/
def execHealthGet (q : Req) (s : State) : Out :=
  .next (runCommand 0 0o070 1 q s fun s q k _ =>
    if q.desc.a0 = 0 then
      if s.arch.report.isEmpty then s.complete k (.refused 0) else s.complete k { data := s.arch.report }
    else match s.peerHealth with
      | some ws => s.complete k { data := ws }
      | none => s.complete k (.refused 0))

/-- Input words 0o077_011 and 0o077_012 (R260). -/
def State.partnerWords (s : State) : List Word :=
  let a := s.arch
  [(s.peerHealth.map fun ws => ws.getD 4 0).getD 0,
   word (flagNat (s.holds && a.tracked) + 2 * flagNat a.aliveIn + 4 * flagNat a.aup + 8 * flagNat a.bup)]

end Sys2Proof.Machine
end

