-- ==== Sys2Proof/Machine/Image.lean ====
section
/-!
DEFINITION. The input image of a tick (R46, R52, R70), the ledger on the holder and on a standby (R246–R250, R253), slot
dispatch (R50–R53, R102) and the budget overrun (R59).
-/

namespace Sys2Proof.Machine

/-! ## Receptions admitted to the image (R248) -/

/-- Receptions being admitted, in order of arrival. -/
structure Admission where
  /-- Ledger words left; a reception that does not fit closes the image to it and to those after it. -/
  room : Nat
  blocked : Bool := false
  /-- Admitted entries by channel, and the words of the serial ones. -/
  can : Tbl Nat := []
  ser : Tbl Nat := []
  serWords : Tbl Nat := []
  mail : List Nat := []
  /-- Those that wait, and the words of the ones the ledger deferred. -/
  kept : List (Nat × Nat) := []
  words : Nat := 0

/-- How many kept arrivals are of one kind and channel. -/
def Admission.waiting (a : Admission) (k : Nat × Nat) : Nat := (a.kept.filter fun x => x == k).length

/-- Keep an arrival for a later image. -/
def Admission.keep (a : Admission) (k : Nat × Nat) : Admission := { a with kept := a.kept ++ [k] }

/-- Admit an arrival at a cost, or defer it and everything after it. -/
def Admission.try (a : Admission) (k : Nat × Nat) (cost : Nat) (f : Admission → Admission) : Admission :=
  if a.blocked || decide (a.room < cost) then { a.keep k with blocked := true, words := a.words + cost }
  else f { a with room := a.room - cost }

/-- The receiver of a mailbox direction numbered 2c or 2c + 1. -/
def State.mailReceiver (s : State) (d : Nat) : Nat := (s.channel (d / 2)).receiver (d % 2 == 1)

/-- Words of a channel's receive block after its status word (R283). -/
def Binding.messageWords (b : Binding) : Nat := if b.len16 then 16 else 8

/-- One arrival: a stale one goes, one that waits for another reason is kept. -/
def State.admitOne (s : State) (a : Admission) (k : Nat × Nat) : Admission :=
  match k with
  | (0, e) =>
    let x := s.telegram e
    if (s.train.sub e).waiting.isNone || !x.receives then a
    else a.try k (2 + x.dataAt + x.dataWords) id
  | (1, c) =>
    let n := Tbl.get 0 a.can c
    let q := (s.can c).queue
    if q.length ≤ n + a.waiting k then a
    else if s.cnEntries c ≤ n || !s.beforeTin (q.getD n []) then a.keep k
    else a.try k (s.cnEntryWords c + (if n = 0 then 3 else 0)) fun a => { a with can := Tbl.set 0 a.can c (n + 1) }
  | (2, c) =>
    let n := Tbl.get 0 a.ser c
    let used := Tbl.get 0 a.serWords c
    let q := (s.serial c).queue
    let f := q.getD n []
    if q.length ≤ n + a.waiting k then a
    else if s.srSize c - 1 < used + f.length || !s.beforeTin f then a.keep k
    else a.try k (f.length + (if n = 0 then 3 else 0)) fun a =>
      { a with ser := Tbl.set 0 a.ser c (n + 1), serWords := Tbl.set 0 a.serWords c (used + f.length) }
  | (_, d) =>
    let c := s.channel (d / 2)
    if !(c.dir (d % 2 == 1)).go || s.mailReceiver d < 8 then a
    else if !s.md.tasksRun then a.keep k
    else a.try k (3 + c.bind.messageWords) fun a => { a with mail := a.mail ++ [d] }

/-- The blocks that go into every ledger (R246): local inputs, system words, station bits, topology, safety image. -/
def State.fixedBlocks (s : State) : List (Nat × Nat) :=
  [(s.fiBase, 3), (0o077_000, 12), (0o077_020, 15), (0o077_040, 15), (0o077_060, 5), (0o077_700, 17)]

/-- The blocks of receptions: telegrams, CAN, serial and messages. -/
def State.receptionBlocks (s : State) : List (Nat × Nat) :=
  (((usedEntries s.train.table).filter fun e => (s.telegram e).receives).map fun e =>
      let x := s.telegram e
      (x.base, x.dataAt + x.dataWords)) ++
    ((List.range 8).filter s.cnImgOn).map (fun c => (s.cnImgBase c, 1 + s.cnEntries c * s.cnEntryWords c)) ++
    ((List.range 8).filter s.srImgOn).map (fun c => (s.srImgBase c, s.srSize c)) ++
    s.mailboxBlocks.map fun r => (r.first, r.len)

/-- Words of a ledger's body kept for receptions: 4,096 less the close's 512 and what goes into every ledger (R248). -/
def State.ledgerRoom (s : State) : Nat :=
  if s.inArch then
    4096 - 512 - ((s.fixedBlocks.map fun b => 2 + b.2).foldl (· + ·) 0) - 3 * s.receptionBlocks.length
  else 2 ^ 36

/-- Admit the receptions of image n (R248); those deferred are recorded. -/
def State.admitReceptions (s : State) : State × List Nat :=
  let a := s.arch.arrivals.foldl (fun (a : Admission) k => s.admitOne a k) { room := s.ledgerRoom }
  let wait (e : Nat) (u : Subscription) : Subscription := { u with deferred := a.kept.contains (0, e) }
  let s1 := { s with
    arch := { s.arch with arrivals := a.kept }
    train := { s.train with subs := Tbl.mapEntries {} wait s.train.subs }
    cans := Tbl.mapEntries {} (fun c x => { x with admitted := some (Tbl.get 0 a.can c) }) s.cans
    serials := Tbl.mapEntries {} (fun c x => { x with admitted := some (Tbl.get 0 a.ser c) }) s.serials }
  (if a.words = 0 then s1 else s1.event 0o001_204 0 0 a.words 0, a.mail)

/-! ## Messages for tiles (R283, R285) -/

/-- A message is taken into its receive block: GO clears, TAKEN is set, and the status word counts it. -/
def State.takeMail (s : State) (d : Nat) : State :=
  let n := d / 2
  let y := d % 2 == 1
  let c := s.channel n
  let x := c.dir y
  let base := if y then c.bind.ibx else c.bind.iby
  let count := (x.takenCount + 1) % 512
  let status := word (fieldAt 1 17 + fieldAt (flagNat x.orphan) 16 + count)
  let s1 := s.writeFields base (status :: Tbl.getMany 0 x.msg 0 c.bind.messageWords)
  (s1.setChannel n (c.setDir y { x.take with takenCount := count })).doorbell (c.sender y) (16 + n)

/-- NEW of every receive block falls; a message taken in this tick sets it again. -/
def State.clearNew (s : State) : State :=
  s.channels.foldl (fun (s : State) e =>
    let b := e.2.bind
    let clear (s : State) (tile base : Nat) : State :=
      if 8 ≤ tile then s.writeField base (Tbl.get 0 s.work.mortar.inputField base &&& 0o377_777) else s
    if (b.usable s.tileCount) then clear (clear s b.x b.ibx) b.y b.iby else s) s

/-- Messages enter the image in a tick in which tasks run (R285): none is admitted in another. -/
def State.closeMail (s : State) (mail : List Nat) : State := mail.foldl (fun (s : State) d => s.takeMail d) s.clearNew

/-! ## System words (R70, R189, R260, R446) -/

/-- Input words 0o077_000–0o077_013. -/
def State.systemWords (s : State) : List Word :=
  let x := s.field
  [lowWord s.tickNumber, highWord s.tickNumber, word s.era,
   word (flagNat s.md.startTick + 2 * flagNat (!s.work.forces.isEmpty) + 4 * flagNat s.locked),
   lowWord x.utcSec, highWord x.utcSec, word x.utcSub, s.work.errLast, word (fieldAt s.ovrTile 8 + s.ovrTask)] ++
    s.partnerWords ++ [s.clock.report]

/-- The input system area of image n. -/
def State.closeSystem (s : State) : State :=
  let present := (List.range 15).map (s.stationBits fun x => x.present)
  let awaiting := (List.range 15).map (s.stationBits fun x => x.awaiting)
  let s1 := (((s.writeFields 0o077_000 s.systemWords).writeFields 0o077_020 present).writeFields 0o077_040 awaiting).writeFields
    0o077_060 s.topologyWords
  { s1 with clock := { s1.clock with report := 0 } }

/-! ## The image closes (R46, R183) -/

/-- Input forces, then the image stands for the tasks of the tick (R183, R187). -/
def State.forceImage (s : State) : State :=
  let m := s.work.mortar
  let s1 := s.setMortar { m with input := applyForces false m.inputField s.work.forces }
  let s2 := s1.work.forces.foldl (fun (s : State) f => if f.output then s else s.dirty (mortarLine 0 f.index)) s1
  { s2 with md := { s2.md with imageClosed := true } }

/-- The image before becomes the one triggers compare with, after forces (R52), and the ledger's entries, before them (R246). -/
def State.keepImage (s : State) : State :=
  let m := s.work.mortar
  s.setMortar { m with inputPrev := m.input, fieldPrev := m.inputField }

/-- Image n from this Keystone's own inputs and receptions, in the order of R46. -/
def State.closeOwnImage (s : State) : State :=
  let s1 := s.keepImage.closeStations.closeLinks.closeField
  let (s2, mail) := s1.admitReceptions
  let s3 := ((s2.closeMail mail).closeTelegrams).closeChannels.showInauguration
  let s4 := (s3.meterCount s3.meterBoundary s3.meterLoss).closeMeter
  s4.closeSystem.forceImage

/-! ## The ledger (R246–R250) -/

/-- A header word of an entry (R247). -/
def entryHead (kind len : Nat) : Word := word (fieldAt kind 12 + len % 4096)

/-- The words of an entry (R247). -/
def ledgerWords : LedgerEntry → List Word
  | .image i ws => entryHead 1 (1 + ws.length) :: word i :: ws
  | .overrun l => entryHead 2 (2 * l.length) :: l.flatMap fun x => [word (x.1 % 32 * 256 + x.2.1 % 256), word x.2.2]
  | .force l => entryHead 3 (8 * l.length) :: l.flatMap id
  | .activate id tick => [entryHead 4 4, lowWord id, highWord id, lowWord tick, highWord tick]
  | .mode k tick => [entryHead 5 3, word k, lowWord tick, highWord tick]
  | .start v => [entryHead 6 1, word (v % 16)]
  | .meter b => [entryHead 7 2, lowWord b, highWord b]

/-- The check value of a ledger (R247): the fold of R144 over every body word and the first six close words. -/
def ledgerCheck (body : List LedgerEntry) (tick epoch words entries : Nat) : Dword :=
  let close := [lowWord tick, highWord tick, lowWord epoch, highWord epoch, word words, word entries]
  foldAll 0 ((body.flatMap ledgerWords ++ close).map fun w => w.setWidth 36)

/-- The blocks of an image that an entry carries: those of every ledger, and reception blocks that have changed. -/
def State.imageEntries (s : State) : List LedgerEntry :=
  let m := s.work.mortar
  let read (t : Tbl Word) (b : Nat × Nat) : List Word := Tbl.getMany 0 t b.1 b.2
  let changed := s.receptionBlocks.filter fun b => read m.inputField b != read m.fieldPrev b
  (s.fixedBlocks ++ changed).map fun b => .image b.1 (read m.inputField b)

/-- An entry that is sent only when it holds something. -/
def whenSome {α : Type} (l : List α) (e : LedgerEntry) : List LedgerEntry := if l.isEmpty then [] else [e]

/-- The METER entry (R246, R387): the boundary, with 2³⁵ added when a sample of the tick is missing. -/
def State.meterEntry (s : State) (loss : Bool) : LedgerEntry :=
  .meter (s.work.meter.boundary + (if loss then 2 ^ 35 else 0))

/-- The ledger of this tick, as the holder of a tracked partner sends it at T_in (R246, R247). -/
def State.sendLedger (s : State) (loss : Bool) : State :=
  let a := s.arch
  let marks := (match a.activateMark with | some (i, t) => [LedgerEntry.activate i t] | none => []) ++
    (match a.modeMark with | some (k, t) => [LedgerEntry.mode k t] | none => [])
  let start := if s.md.startTick then [LedgerEntry.start (s.md.kind + 4 * flagNat s.md.outageUnk)] else []
  let l := s.imageEntries ++ whenSome a.overran (.overrun a.overran) ++ whenSome a.forceMarks (.force a.forceMarks) ++ marks ++
    start ++ [s.meterEntry loss]
  let n := (l.flatMap ledgerWords).length
  let close : LedgerClose := ⟨s.tickNumber, a.epoch, n, l.length, ledgerCheck l s.tickNumber a.epoch n l.length⟩
  { s with arch := { a with ledger := l, ledgerClose := some close, ledgerSent := true, acked := false
                            ledgerMax := max a.ledgerMax (n + 9) } }

/-- The marker of an armed activation for the next boundary goes into this tick's ledger (R175). DESIGN CHOICE: a command that
arms the next tick after this ledger has left finds its tick without a marker, and ends REFUSED with code 17. -/
def State.markActivation_ (s : State) : State :=
  let o := s.online
  let next := (s.tickNumber + 1) % Config.tickModulus
  match o.staged with
  | none => s
  | some g =>
    if s.arch.lstate = 5 ∧ o.armed.isSome ∧ o.archReady ∧ s.arch.activateMark.isNone ∧ (!o.sched ∨ o.atk = next) then
      { s with arch := { s.arch with activateMark := some (g.pkg.id, next) } }
    else s

/-- Image n on a Keystone that builds its own: the holder of a tracked partner then sends the ledger. What overran in the
last tick has then been told. -/
def State.closeAsHolder (s : State) : State :=
  let loss := s.meterLoss
  let s1 := s.closeOwnImage
  let s2 := if s1.arch.lstate = 5 then s1.markActivation_.sendLedger loss else s1
  { s2 with arch := { s2.arch with overran := [], forceMarks := [], tinPassed := true } }

/-- Apply one write set of a standby: its words stand as committed in the tick before (R253). -/
def State.applySet (s : State) : Tbl (Option Word) → State
  | [] => s
  | (k, w) :: rest => (s.writeVar (k / 2 ^ 18) 0 (k % 2 ^ 18) (w.getD 0)).applySet rest

/-- Apply the pending write sets but those named as overrun, which count as overruns (R61, R253). -/
def State.applyPending (s : State) (late : List (Nat × Nat × Nat)) : State :=
  let low := (s.tickNumber + 2 ^ 36 - 1) % 2 ^ 18
  let named (t task : Nat) : Bool := late.any fun x => x.1 == t && x.2.1 == task && x.2.2 == low
  let count (s : State) (task n : Nat) : State := { s with work := { s.work with overruns := Tbl.set 0 s.work.overruns task n } }
  let s1 := s.work.pendingSets.foldl (fun (s : State) p =>
    if named p.1 p.2.1 then count s p.2.1 (min 3 (Tbl.get 0 s.work.overruns p.2.1 + 1)) else count (s.applySet p.2.2) p.2.1 0) s
  { s1 with work := { s1.work with pendingSets := [] } }

/-- A standby without a ledger completes the tick alone (R256): its own image, and its write sets as its own. -/
def State.closeAlone (s : State) : State :=
  let s1 := (s.applyPending []).closeOwnImage
  { s1 with arch := { s1.arch with tinPassed := true, overran := [] } }

/-- PD6, PD7 and PD9 switch off. -/
def State.cutPorts (s : State) : State := s.abortChannels.switch false [6, 7, 9]

/-- PD6, PD7 and PD9 switch off at the later of Seal entry and T_in of the current tick (R490). -/
def State.sealDomains (s : State) : State := if s.md.sealDue ∧ s.arch.tinPassed then s.cutPorts else s

/-- INPUT_IMAGE_CLOSE (R46, R253, R256): at T_in. A standby's image closes with its ledger; in LSTATE 4, alone. -/
def execInputImageClose (el : Elapsed) (s : State) : Out :=
  let s := s.elapse el
  if !s.md.mode.ticks ∨ s.md.imageClosed then .next s
  else if s.md.mode ≠ .track then .next s.closeAsHolder.sealDomains
  else if s.arch.lstate = 4 then .next s.closeAlone.sealDomains
  else
    let s1 := s.closeLinks
    .next ({ s1 with arch := { s1.arch with tinPassed := true, overran := [] } } : State).sealDomains

/-- After a claim in a tick whose T_in has passed without a ledger, the standby completes it alone (R256). -/
def State.completeAlone (s : State) : State :=
  if s.md.mode = .track ∧ s.arch.lstate = 4 ∧ s.arch.tinPassed ∧ !s.md.imageClosed then s.closeAlone else s

/-- LEASE_EXPIRY (R239, R244, R256): 24 µs without a heartbeat on a standby in LSTATE 3, or on one that synchronises. -/
def execLeaseExpiry (s : State) : Out :=
  if s.md.mode ≠ .track ∨ (s.arch.lstate ≠ 1 ∧ s.arch.lstate ≠ 3) then .next s else .next s.leaseExpiry.completeAlone

/-- RELEASE_NOTICE_RECEIPT (R251, R255, R256): a tracked standby acknowledges the notice and claims. -/
def execReleaseNoticeReceipt (b : Nat) (s : State) : Out :=
  if s.arch.lstate = 2 ∧ s.domainOn 2 then .next (s.enterClaim 1 (some b)).completeAlone else .next s

/-! ## The ledger on the standby (R249, R253) -/

/-- LEDGER_ENTRY_RECEIPT (R247). -/
def execLedgerEntryReceipt (e : LedgerEntry) (s : State) : Out :=
  if (s.arch.lstate = 2 ∨ s.arch.lstate = 3) ∧ s.domainOn 2 then
    .next { s with arch := { s.arch with entries := s.arch.entries ++ [e] } }
  else .next s

/-- A word of image n as the IMAGE entries give it, else as it stands. -/
def State.ledgerInput (s : State) (i : Nat) : Word :=
  let hit := s.arch.entries.filterMap fun e => match e with
    | .image first ws => if first ≤ i ∧ i < first + ws.length then some (ws.getD (i - first) 0) else none
    | _ => none
  hit.getLast?.getD (Tbl.get 0 s.work.mortar.inputField i)

/-- A force entry of the ledger applied to the table: a clear when w7 bit 0 is set (R247). -/
def applyForceEntry (table : List Force) (ws : List Word) : List Force :=
  let f := forceOf ws
  if bitOf (ws.getD 7 0) 0 then applyForceChange table (.clear f.word f.output f.index f.bit) else setForce table f

/-- One entry of a complete ledger. -/
def State.applyEntry (s : State) : LedgerEntry → State
  | .image i ws => s.writeFields i ws
  | .overrun _ => s
  | .force l => { s with work := { s.work with forces := l.foldl applyForceEntry s.work.forces } }
  | .activate id tick => { s with arch := { s.arch with activateMark := some (id, tick) } }
  | .mode k tick => { s with arch := { s.arch with modeMark := some (k, tick) } }
  | .start v => { s with md := { s.md with kind := v % 4, outageUnk := v.testBit 2, startTick := true } }
  | .meter b => s.meterCount (b % 2 ^ 35) (decide (2 ^ 35 ≤ b))

/-- The standby's own receptions of this image are not used (R254). -/
def State.dropReceptions (s : State) : State :=
  let (s1, _) := s.admitReceptions
  let s2 := s1.closeTelegrams.closeChannels
  { s with
    train := s2.train
    cans := s2.cans
    serials := s2.serials
    arch := { s.arch with arrivals := s2.arch.arrivals }
    fresh := s2.fresh }

/-- The entries of the OVERRUN kind. -/
def State.ledgerOverruns (s : State) : List (Nat × Nat × Nat) :=
  s.arch.entries.flatMap fun e => match e with | .overrun l => l | _ => []

/-- A complete ledger builds image n on the standby (R253). -/
def State.followLedger (s : State) : State :=
  let present := stationBitOf fun w => s.ledgerInput (0o077_020 + w)
  let awaiting := stationBitOf fun w => s.ledgerInput (0o077_040 + w)
  let entries := s.arch.entries
  let s1 := ((s.applyPending s.ledgerOverruns).keepImage.followStations present awaiting).closeLinks
  let s2 := ((entries.foldl (fun (s : State) e => s.applyEntry e) s1).closeMeter.dropReceptions).followTopology
  let err := Tbl.get 0 s2.work.mortar.inputField 0o077_007
  ({ s2 with work := { s2.work with errLast := err } }).forceImage

/-- The close checks (R247): its tick is this tick, and counts and check value agree with the body. -/
def State.closeChecks (s : State) (c : LedgerClose) : Bool :=
  let body := s.arch.entries
  let n := (body.flatMap ledgerWords).length
  decide (c.tick = s.tickNumber) && c.bodyWords == n && c.entries == body.length &&
    decide (c.check = ledgerCheck body c.tick c.epoch n body.length)

/-- The METER entry of the ledger received: its boundary, and whether it is a LOSS tick (R388). -/
def State.ledgerMeter (s : State) : Option (Nat × Bool) :=
  s.arch.entries.findSome? fun e => match e with | .meter b => some (b % 2 ^ 35, decide (2 ^ 35 ≤ b)) | _ => none

/-- A sample that the holder counts is missing here, or has not come (R388). -/
def State.meterLacks (s : State) : Bool :=
  match s.ledgerMeter with
  | some (b, false) =>
    let d := s.modulators
    let ahead := (b + 2 ^ 35 - d.index) % 2 ^ 35
    s.mtEn && ((decide (ahead ≠ 0) && decide (ahead < 2 ^ 34)) ||
      (d.pending.take (d.pending.length - (d.index + 2 ^ 35 - b) % 2 ^ 35)).any fun x => x.bad)
  | _ => false

/-- LEDGER_COMPLETE (R247, R249, R250, R252, R388): a close that checks is acknowledged, as good or as diverged; a handover
marker moves the standby to LSTATE 4. A close that fails its check is as one that is missing. -/
def execLedgerComplete (c : LedgerClose) (lag : Nat) (s : State) : Out :=
  let a := s.arch
  if !(a.lstate = 2 ∨ a.lstate = 3) ∨ !s.domainOn 2 ∨ a.ledgerDone ∨ !s.closeChecks c then .next s
  else
    let present := stationBitOf fun w => s.ledgerInput (0o077_020 + w)
    if s.viewLacks present ∨ s.meterLacks then
      let s1 := s.resync
      .next (({ s1 with arch := { s1.arch with diverged := true, ackSent := some (c.tick, 1), entries := [] } }).event 0o001_205 0 0 1 0)
    else
      let s1 := s.followLedger
      let s2 := { s1 with arch := { s1.arch with
        entries := [], ledgerDone := true, rerequested := false, ackSent := some (c.tick, 0), lag := lagOf lag,
        lagMax := max s1.arch.lagMax (lagOf lag), peerEpoch := max s1.arch.peerEpoch c.epoch } }
      .next s2.followHandover

/-! ## Slot dispatch (R50–R53, R102) -/

/-- A trigger met between the image of the last tick and this one (R52); none by a change into or out of substitute values
(R78). DESIGN CHOICE: a trigger whose reference names another area than the input image is never met. -/
def State.triggerMet (s : State) (t : Trigger) : Bool :=
  let m := s.work.mortar
  let i := t.ref.index
  let b := t.ref.bit
  let old := Tbl.get 0 m.inputPrev i
  let new := Tbl.get 0 m.input i
  t.ref.area == 0 && !s.substChanged i && (match t.kind with
  | .rising => !bitOf old b && bitOf new b
  | .falling => bitOf old b && !bitOf new b
  | .either => bitOf old b != bitOf new b
  | .change => old != new)

/-- The trigger mask of an event task in this tick: none in a start tick, and not yet for triggers just added (R52, R53,
R179). -/
def State.triggerMask (s : State) (task : Nat) : Nat :=
  if s.md.startTick then 0
  else match s.work.program.tasks.find? fun d => d.task == task with
    | none => 0
    | some d => (List.range (min 8 d.triggers.length)).foldl (fun n i =>
        match d.triggers[i]? with
        | some t => if s.triggerMet t && !(s.work.newTriggers.contains (task, t)) then n + 2 ^ i else n
        | none => n) 0

/-- g0 of a slot's activation in this tick, none when its task is not activated (R40, R50, R53). -/
def State.activated (s : State) (e : SlotEntry) : Option Word :=
  match e.kind with
  | 0 => if !s.md.startTick && s.work.count % max 1 e.period == e.phase then some 0 else none
  | 1 => let m := s.triggerMask e.task; if m = 0 then none else some (word m)
  | 2 => if s.work.errLast = 0 then none else some s.work.errLast
  | 3 => if s.md.startTick then some (word (s.md.kind + 4 * flagNat s.md.outageUnk)) else none
  | _ => none

/-- The table of a tile in this tick (R53). -/
def State.tableOf (s : State) (t : Nat) : List SlotEntry := if s.md.startTick then (s.mem t).start else (s.mem t).run

/-- Dispatch a slot (R57, R102): 24 cycles of its budget, and the tile's state. -/
def State.dispatch (s : State) (t slot : Nat) (e : SlotEntry) (g0 : Word) : State :=
  let m := s.mem t
  let cpu : Cpu := ({ pc := BitVec.ofNat 17 e.entry, budget := e.budget - 24 : Cpu }.setReg 0 g0).setReg 7 (word (m.sbhi.toNat + 1))
  let s1 := s.drainAll t
  let x := s1.tile t
  let y := { x with cpu := cpu, checker := cpu, checkpoint := { cpu := cpu, sblo := m.sblo, sbhi := m.sbhi }, filling := [],
                    draining := [], signature := 0, checkSig := 0, windowCycles := 0,
                    closeDue := false, closeWaits := false, effect := none, held := [], checkpointHeld := [],
                    activation := some { slot := slot, entry := e } }
  (s1.setTile t y).claimLocks t e.task (List.range 64)

/-- The safety interface task (R352, R254): its send, discarded and counted in Track. -/
def State.safetySlotRun (s : State) : State :=
  if s.md.mode = .track then { s with trackDiscards := inc18 s.trackDiscards } else s.sendEnables false

/-- SLOT_DISPATCH (R51): in a tick in which tasks run, after its image has closed, the slots of a tile in order, each
once; not while the tile's activation is open. -/
def execSlotDispatch (t slot : Nat) (s : State) : Out :=
  if s.tileCount ≤ t ∨ !s.md.tasksRun ∨ !s.md.imageClosed then .next s
  else
    let s1 := s.settle t
    let x := s1.tile t
    if x.activation.isSome ∨ x.slotsDone.any (fun d => decide (slot ≤ d)) then .next s1
    else match (s1.tableOf t)[slot]? with
      | none => .next s1
      | some e =>
        let s2 := s1.setTile t { x with slotsDone := slot :: x.slotsDone }
        if e.kind = 4 then .next s2.safetySlotRun
        else match s2.activated e with
          | none => .next s2
          | some g0 => .next (s2.dispatch t slot e g0)

/-- BUDGET_OVERRUN (R59): the counter stands at 0 at a retire boundary. The open window closes with a match; an
activation that has not returned ends uncommitted. -/
def execBudgetOverrun (t : Nat) (s : State) : Out :=
  let x := s.tile t
  match x.activation with
  | none => .next s
  | some a =>
    if s.tileCount ≤ t ∨ a.stopped ∨ x.cpu.budget ≠ 0 then .next s
    else .next ((s.closeMatch t).overrun t .budgetOverrun [])

end Sys2Proof.Machine
end

