-- ==== Sys2Proof/Machine/Power.lean ====
section
/-!
DEFINITION. Feeds, the hold-up bank, power domains and temperature (R483–R501), Backup, and what a loss of power leaves
(R41, R72, R510).
-/

namespace Sys2Proof.Machine

/-! ## The seal reserve (R487) -/

/-- The least number whose square is not below n. -/
def sqrtUp (n : Nat) : Nat := let r := isqrt n; if r * r = n then r else r + 1

/-- V_SR in 0.1 V for a tick period in µs: sqrt(400 + 400 e) with e = 0.92 + 18 (p + 0.010), rounded up (R487). -/
def sealReserve (period : Nat) : Nat := sqrtUp (ceilDiv (8400000 + 72 * period) 100)

/-- V_SR for the P in effect. -/
def State.vSr (s : State) : Nat := sealReserve s.tick.period

/-- The bank stands at a voltage: SROK is judged, and its fall outside Start is recorded (R487). -/
def State.setBank (s : State) (volts : Nat) : State :=
  let ok := decide (s.vSr ≤ volts)
  let s1 := { s with power := { s.power with hold := volts, srok := ok } }
  if s.power.srok ∧ !ok ∧ s.md.mode ≠ .start then s1.event 0o002_304 0 0 (min 0o777_777 volts) s.vSr else s1

/-- BANK_BELOW_RESERVE (R487). -/
def execBankBelowReserve (volts : Nat) (s : State) : Out :=
  if !s.md.mode.powered ∨ s.vSr ≤ volts then .next s else .next (s.setBank volts)

/-- BANK_RESERVE_REACHED (R487). -/
def execBankReserveReached (volts : Nat) (s : State) : Out :=
  if !s.md.mode.powered ∨ volts < s.vSr then .next s
  else
    let s1 := s.setBank volts
    .next { s1 with power := { s1.power with failed := false } }

/-! ## What a power loss leaves -/

/-- The set-up registers that hold settings in settings blocks (R510). -/
def isSetting (i : Nat) : Bool :=
  let within (a b : Nat) : Bool := decide (a ≤ i) && decide (i ≤ b)
  let can := i - 0o010_400
  let ser := i - 0o011_000
  i == 0o000_101 || i == 0o000_420 || i == 0o000_500 || within 0o000_510 0o000_527 || i == 0o000_600 ||
    within 0o000_606 0o000_611 || within 0o001_300 0o001_377 || i == 0o001_406 || within 0o002_000 0o003_777 ||
    within 0o010_000 0o010_002 || i == 0o010_006 || (within 0o010_400 0o010_577 && decide (can % 16 ≤ 6)) ||
    (within 0o011_000 0o011_177 && decide (ser % 16 ≤ 4)) || within 0o012_400 0o012_410 || within 0o013_000 0o013_021 ||
    i == 0o013_410 || within 0o014_100 0o014_102 || within 0o014_120 0o014_137 || i == 0o014_403

/-- The settings of a set-up table (R510). -/
def settingsOf (t : Tbl (Option Word)) : Tbl (Option Word) := Tbl.keep (fun i _ => isSetting i) t

/-- The page store without its supply (R419): the page under write is undefined, nothing waits. -/
def PageStore.unpowered (ps : PageStore) : PageStore :=
  let bad := match ps.writing with | some p => Tbl.set false ps.undefined p true | none => ps.undefined
  { words := ps.words, writes := ps.writes, undefined := bad, scrubAt := ps.scrubAt, ref := ps.ref, unmirrored := ps.unmirrored,
    counters := ps.counters, intent := ps.intent, appSlot := ps.appSlot, appended := ps.appended, appendDue := ps.appendDue,
    image := ps.image, otherImage := ps.otherImage }

/-- The clock when the masters lose their supply and PD0 keeps its own (R434, R441). -/
def Clock.unattended (c : Clock) : Clock :=
  { c with halt := false, stager := noOwner, stagerCred := {}, stSub := none, stTime := none, stDate := none, wrlost := false,
           shadows := [], slew := 0, slewPart := 0 }

/-- The Keystone with only PD0 supplied, or nothing: what the non-volatile memories, fuses and PD0 hold, and the settings
(R72, R400, R434, R510). A staged package is kept only so that the next Start can record that it is discarded (R172). -/
def State.unpowered (s : State) (backup : Bool) : State :=
  { pending := s.pending, lastRead := s.lastRead, fresh := s.fresh, variant := s.variant, noReserves := s.noReserves
    md := { mode := if backup then .backup else .off, prev := s.md.mode, coldCause := s.md.coldCause, safePending := s.md.safePending }
    dies := s.dies
    work := { setup := s.work.setup }
    persist := { s.persist with outstanding := [], dirty := [], lagging := false }
    online := { staged := s.online.staged, transferred := s.online.transferred }
    channels := Tbl.mapEntries {} (fun _ c => { settings := c.settings }) s.channels
    recorder := { s.recorder with open_ := false, queue := [], opened := [] }
    pages := s.pages.unpowered
    setup := settingsOf s.setup
    programCred := s.programCred
    identity := { anchors := s.identity.anchors, revoked := s.identity.revoked }
    firmware := { s.firmware with shownAt := (s.firmware.armed.map ArmedUpdate.at_).getD 0, lastBlock := none, activating := false,
                                  failed := false, marked := false }
    clock := if backup then s.clock.unattended else { bkext := s.clock.bkext }
    watchdog := { hwStart := s.watchdog.hwStart }
    power := { on := if backup then [(0, true)] else [], hold := s.power.hold, temp := s.power.temp }
    island := s.island.powerUp
    modulators := { index := s.modulators.index }
    arch := { epoch := s.arch.epoch, slip := s.arch.slip, takeovers := s.arch.takeovers }
    train := { settings := s.train.settings } }

/-- The transition to Backup or Off is recorded, the records that wait are written (R23, R411), and the supply is gone. -/
def State.goDark (s : State) (backup : Bool) (cause : ModeCause) : State :=
  ((s.tellMode (if backup then .backup else .off) cause).writeQueue).unpowered backup

/-- Power is lost without a seal, or after it: the module goes to Backup with a backup source, else to Off (R26). A start
cut off is recorded if the recorder is open (R41), and TRIES stands as before it, for a feed loss is no failed start (R476). -/
def State.powerDown (s : State) (backup : Bool) : State :=
  if s.md.mode = .start then
    let s1 := s.named .startInterrupted 0 0 {} [0, 0, s.tickNumber % 2 ^ 18, s.tickNumber / 2 ^ 18]
    let f := s1.firmware
    { s1 with firmware := { f with tries := f.tries - 1 } }.goDark backup .power
  else s.goDark backup .power

/-! ## Backup (R26, R434) -/

/-- BACKUP_ENTRY (R26): with no feed, PD0 alone is powered, from no supply (R436, R443). -/
def execBackupEntry (external : Bool) (s : State) : Out :=
  if s.md.mode ≠ .off then .next s
  else
    let s1 := ({ s with md := { s.md with mode := .backup, prev := .off } }).switch true [0]
    .next ({ s1 with clock := { s1.clock with bkext := external } } : State).powerClock

/-- BACKUP_SOURCE_EXHAUSTED (R26). -/
def execBackupSourceExhausted (s : State) : Out :=
  if s.md.mode ≠ .backup then .next s
  else .next { s with md := { s.md with mode := .off, prev := .backup }, clock := {}, power := { s.power with on := [] } }

/-! ## Feeds (R484, R485) -/

/-- The class code of R501. -/
def feedCode : FeedClass → Nat
  | .absent => 0 | .inRange => 1 | .outOfRange => 2 | .reversed => 3

/-- The class of a feed at a voltage in 0.1 V, from the class that stood before; `over` when it has stood above 137.5 V for 100 ms
(R484). A reversed feed that rises is absent until it reaches 16.8 V. -/
def feedClass (old : FeedClass) (volts : Int) (over_ : Bool) : FeedClass :=
  if volts < 0 then .reversed
  else if volts < 144 then .absent
  else if (168 ≤ volts ∧ volts ≤ 1375) then .inRange
  else if 1375 < volts ∧ over_ then .outOfRange
  else if old = .reversed then .absent
  else old

/-- FEED_STATE_CHANGE (R484): the class, voltages and the feed event. A reversed feed reads 0 V. -/
def execFeedStateChange (feed : Nat) (volts : Int) (over_ : Bool) (s : State) : Out :=
  if !s.md.mode.powered ∨ 1 < feed then .next s
  else
    let v := volts.toNat
    let old := if feed = 0 then s.power.feedA else s.power.feedB
    let cls := feedClass old volts over_
    let p := if feed = 0 then { s.power with feedA := cls, voltsA := v } else { s.power with feedB := cls, voltsB := v }
    let s1 := { s with power := p }
    if old = cls then .next s1 else .next (s1.event 0o002_300 0 0 feed (feedCode cls))

/-- A feed supplies the module (R484). -/
def feedSupplies : FeedClass → Bool
  | .inRange | .outOfRange => true
  | _ => false

/-- PW_STAT.SRC (R484, R500): the higher feed, both within 1 V, none while the bank supplies. -/
def Power.source (p : Power) : Nat :=
  let a := feedSupplies p.feedA
  let b := feedSupplies p.feedB
  if a && b && decide (p.voltsA ≤ p.voltsB + 10) && decide (p.voltsB ≤ p.voltsA + 10) then 3
  else if a && (!b || decide (p.voltsB ≤ p.voltsA)) then 1
  else if b then 2
  else 0

/-- POWER_FAIL_TRIP (R485): the ride-through begins; in Start and with a failed bank there is none (R41). -/
def execPowerFailTrip (backup : Bool) (s : State) : Out :=
  if !s.md.mode.powered ∨ s.power.pfail then .next s
  else if s.md.mode = .start ∨ s.power.failed then .next (s.powerDown backup)
  else .next { s with power := { s.power with pfail := true } }

/-- RIDE_THROUGH_RETURN (R485): `duration` in 0.1 ms, `lowest` the lowest bank voltage in 0.1 V. -/
def execRideThroughReturn (duration lowest : Nat) (s : State) : Out :=
  if !s.power.pfail ∨ s.md.sealDue ∨ s.md.mode = .seal then .next s
  else .next (({ s with power := { s.power with pfail := false, ride := true } }).event 0o002_301 0 0
    (min 0o777_777 duration) (min 0o777_777 lowest))

/-- Page-store descriptors that have not begun complete ABORTED; a page in progress runs to its end (R407). -/
def State.cutPages (s : State) : State :=
  let waiting := s.pages.jobs.filterMap fun j => if j.begun then none else j.ticket
  let kept : List PageJob := (s.pages.jobs.filter fun j => j.begun).map fun (j : PageJob) => { j with cut := true }
  ({ s with pages := { s.pages with jobs := kept } }).completeAll .aborted waiting

/-- Seal is entered (R76, R407): no further tick starts. PD6, PD7 and PD9 are off (R490). -/
def State.enterSeal (s : State) : State :=
  let s1 := { s with md := { s.md with sealFrom := some s.md.mode, sealDue := false } }
  (s1.cutPages.cutPorts).toMode .seal .seal {}

/-- RIDE_THROUGH_END (R485, R76): Seal is due at the next boundary; where no tick runs it is entered at once. -/
def execRideThroughEnd (s : State) : Out :=
  if !s.power.pfail then .next s
  else if s.md.mode.ticks then .next ({ s with md := { s.md with sealDue := true } } : State).sealDomains
  else if s.md.mode = .service ∨ s.md.mode = .update then .next s.enterSeal
  else .next s

/-- HOLD_UP_FAILURE (R41, R26): with a feed the module runs on with SROK 0; without one it goes to Backup or Off. -/
def execHoldUpFailure (feed backup : Bool) (s : State) : Out :=
  if !s.md.mode.powered then .next s
  else if feed then
    let s1 := s.setBank 0
    .next { s1 with power := { s1.power with failed := true } }
  else .next (s.powerDown backup)

/-! ## Domains and temperature (R490, R491, R499) -/



/-- What a domain takes with it when its supply is gone: PD7 its commands in work, PD8 the safety island and the output switches (R490,
R491). -/
def State.loseDomain (s : State) (d : Nat) : State :=
  if d = 7 then s.abortChannels
  else if d = 8 then { (s.revoke 2) with island := s.island.powerUp, field := { s.field with outs := [] } }
  else s

/-- DOMAIN_FAULT (R491). Where the backup source cannot take PD0 over, it has lost its supply (R436, R443). -/
def execDomainFault (d : Nat) (x : DomainLoss) (s : State) : Out :=
  if !s.domainOn d ∨ !s.md.mode.powered ∨ !s.populated d then .next s
  else
    let s1 := s.event 0o002_302 0 0 d (flagNat x.limit)
    if d = 1 then .next (s1.goDark false .power)
    else if d = 0 then .next ((if x.backup then s1 else s1.powerClock).switch false [0])
    else if d = 6 then
      let s2 := s1.switch false [6]
      .next { s2 with power := { s2.power with retry := Tbl.set false s2.power.retry 6 true } }
    else if d = 9 then
      let s2 := ((s1.setModulator 0 false).setModulator 1 false).switch false [9]
      .next { s2 with power := { s2.power with retry := Tbl.set false s2.power.retry 9 true } }
    else .next (((s1.loseDomain d).switch false [d]).containedFault)

/-- DOMAIN_RETRY (R491): PD6 or PD9, once, 100 ms after it switched off; if it fails, it stays off until the next Start. -/
def execDomainRetry (d : Nat) (ok : Bool) (s : State) : Out :=
  if !Tbl.get false s.power.retry d then .next s
  else
    let s1 := { s with power := { s.power with retry := Tbl.set false s.power.retry d false } }
    if ok ∧ s.md.mode ≠ .seal ∧ !s.md.sealDue then .next (s1.switch true [d]) else .next s1

/-- TEMPERATURE_THRESHOLD (R499, R501): the baseplate passes 85 °C or 95 °C, or returns below 85 °C; in 0.1 °C. -/
def execTemperatureThreshold (temp : Int) (s : State) : Out :=
  if !s.md.mode.powered then .next s
  else
    let s1 := { s with power := { s.power with temp := temp } }
    let hot := if temp < 850 then 0 else if temp ≤ 950 then max 1 s.power.hot else 2
    if hot = s.power.hot ∨ temp = 850 then .next s1
    else .next (({ s1 with power := { s1.power with hot := hot } }).event 0o002_303 0 0 (signedField 18 temp) hot)

/-- PW_STAT (R500). DESIGN CHOICE: CHG while a feed supplies the module, the bank works and it stands below 100.0 V; the spec does not
say when the charger draws nothing. -/
def State.pwStat (s : State) : Word :=
  let p := s.power
  word (fieldAt (flagNat (p.feedA == .inRange)) 17 + fieldAt (flagNat (p.feedB == .inRange)) 16 +
    fieldAt (flagNat (p.feedA == .reversed)) 15 + fieldAt (flagNat (p.feedB == .reversed)) 14 + fieldAt p.source 12 +
    fieldAt (flagNat p.pfail) 11 + fieldAt (flagNat p.srok) 10 +
    fieldAt (flagNat (p.source != 0 && !p.failed && decide (p.hold < 1000))) 9 +
    fieldAt (flagNat (s.clock.bkext && !s.md.mode.powered)) 8 + fieldAt (flagNat p.ride) 7)

/-- A power register as read (R500). -/
def State.readPower (s : State) (idx : Nat) : Word :=
  let v (n : Nat) : Word := word (min 0o777_777 n)
  match idx - 0o015_000 with
  | 0 => s.pwStat
  | 1 => v s.power.voltsA
  | 2 => v s.power.voltsB
  | 3 => v s.power.hold
  | 4 => v s.vSr
  | 5 => word (maskOf 10 s.domainOn)
  | 6 => word (signedField 18 s.power.temp)
  | _ => 0

/-- A write to a power register (R500): PW_STAT.RIDE clears. -/
def State.writePower (s : State) (idx : Nat) (v : Word) : State :=
  if idx = 0o015_000 ∧ bitOf v 7 then { s with power := { s.power with ride := false } } else s

end Sys2Proof.Machine
end

