-- ==== Sys2Proof/Machine/Modes.lean ====
section
/-!
DEFINITION. Mode requests (R26, R27), the cold restart's initialisation (R38), and what entering and leaving a mode does
(R22–R29, R40, R197, R241–R244, R251).
-/

namespace Sys2Proof.Machine

/-- The mode of a code (R22). -/
def modeOf (n : Nat) : Option Mode :=
  [Mode.off, .backup, .start, .stop, .run, .hold, .track, .takeover, .safe, .seal, .update, .service][n]?

/-- The right a requested transition needs, none when it is not listed (R26). -/
def requestRight : Mode → Mode → Option Nat
  | .stop, .run => some 1
  | .stop, .track => some 1
  | .stop, .service => some 2
  | .stop, .update => some 2
  | .run, .stop => some 1
  | .run, .hold => some 2
  | .run, .track => some 2
  | .hold, .run => some 2
  | .hold, .stop => some 1
  | .track, .stop => some 1
  | .safe, .stop => some 2
  | .service, .stop => some 2
  | _, _ => none

/-- The partner is in Run and holds the lease, as last heard (R34). -/
def State.partnerRuns (s : State) : Bool :=
  s.partnerHolds && (match s.arch.peer with | some h => h.mode == 4 | none => false)

/-- Why a Keystone cannot enter Run from Stop (R26, R45, R47, R451, R487): none when it can. The loaded program is
re-proved against the values in effect. -/
def State.runFault (s : State) : Option Reply :=
  if !s.work.program.loaded then some (.refused 0)
  else match proveProgram s.runningView s.tick s.archConfigured s.tileCount 0 with
    | some r => some r.reply
    | none =>
      if !placesOk s.allocations s.work.program.symbols s.work.program.tasks then some (.refused 8)
      else if !s.linksFit || !s.linksAllowed || !s.power.srok || !s.wdAllowsRun then some (.refused 0)
      else none

/-- The mode a listed request leads to, or why its condition is not met. A Run request is refused while SROK is 0 or where the
links may not run or do not fit (R41, R201, R217, R232); while the paired partner runs and holds the lease it leads to Track
(R26); a Keystone that cannot claim an epoch stays in Stop (R240). -/
def State.requestTarget (s : State) (target : Mode) : Except Reply Mode :=
  match s.md.mode, target with
  | .stop, .run | .stop, .track =>
    if !s.power.srok || !s.linksAllowed || !s.linksFit then .error (.refused 0)
    else if s.partnerRuns && s.arch.paired then .ok .track
    else if s.partnerHolds || target == .track || s.claimed.isNone then .error (.refused 0)
    else match s.runFault with | some r => .error r | none => .ok .run
  | .stop, .update =>
    if s.firmware.imageReady && !(s.inArch && s.holds) then .ok .update else .error (.refused 0)
  | .run, .hold => if s.arch.lstate = 5 then .error (.refused 0) else .ok .hold
  | .run, .track =>
    if s.arch.lstate = 5 && (match s.arch.peer with | some h => h.lstate == 2 || h.lstate == 3 | none => false) then .ok .track
    else .error (.refused 0)
  | _, m => .ok m

/-- An automatic cause due at the next boundary, or a transition under way, leaves no room for a request (R27). -/
def State.transitionDue (s : State) : Bool :=
  s.md.safeDue || s.md.staleDue || s.md.sealDue || s.md.stopDue || s.arch.lstate == 4 || s.firmware.activating ||
    (match s.md.mode with | .start | .takeover | .seal | .update => true | _ => false)

/-- Place a mode marker in the ledger of the current tick when it has not been sent; otherwise the request waits one tick
(R252). -/
def State.placeMark (s : State) (k : Nat) : State × Bool :=
  if !s.arch.tinPassed ∧ s.arch.modeMark.isNone then
    ({ s with arch := { s.arch with modeMark := some (k, (s.tickNumber + 1) % Config.tickModulus) } }, false)
  else (s, true)

/-- The marker a request of a holder with a tracked partner needs (R252): 1 for Stop, 2 for the handover. -/
def State.markOf (s : State) (target : Mode) : Option Nat :=
  if s.arch.lstate = 5 ∧ s.md.mode = .run then
    match target with | .stop => some 1 | .track => some 2 | _ => none
  else none

/-- A request is accepted: it waits for its boundary, with its marker in the ledger. -/
def State.acceptRequest (s : State) (r : ModeRequest) : State :=
  let (s1, wait) := match s.markOf r.target with | some k => s.placeMark k | none => (s, false)
  { s1 with md := { s1.md with requests := s1.md.requests ++ [{ r with wait := wait }] }
            firmware := { s1.firmware with activating := s1.firmware.activating || r.target == .update } }

/-- MODE_REQUEST (R26, R27). Service is left at once, since no boundary comes in it. -/
def execModeRequest (q : Req) (s : State) : Out :=
  .next (runCommand 0 0o030 0 q s fun s q k cred =>
    let init := bitOf q.desc.a0 4
    match modeOf (bitsOf q.desc.a0 3 0) with
    | none => if s.transitionDue then s.complete k .busy else s.complete k (.refused 0)
    | some target =>
      if s.transitionDue ∨ (s.md.mode = .hold ∧ target = .run ∧ !s.online.stepping.isEmpty) then s.complete k .busy
      else match requestRight s.md.mode target with
        | none => s.complete k (.refused 0)
        | some right =>
          if s.rightOf 0 q.origin < right then
            (s.complete k { status := stDenied }).credEvent 0o002_201 (originPlace 0 q.origin) 2 cred
          else match s.requestTarget target with
            | .error r => s.complete k r
            | .ok m =>
              if s.md.mode = .service then
                (s.leaveService .request cred).complete k .done
              else s.acceptRequest ⟨m, s.md.mode, init, k, cred.role, cred.fp, false⟩)

/-! ## Cold restart (R38) -/

/-- A tile's data memory at its declared initial values. DESIGN CHOICE: a word without a declared one holds 0 after a cold
restart. -/
def initialData (symbols : List Symbol) (t : Nat) : Tbl Word :=
  (symbols.filter fun y => y.area == 3 && y.tile == t).foldl (fun d y => Tbl.setMany 0 d y.addr (Symbol.inits y)) []

/-- One tile is reset (R165) and its data memory initialised. -/
def State.initTile (s : State) (t : Nat) : State :=
  let m := s.mem t
  let d := initialData s.work.program.symbols t
  ((((s.tileReset t).dirtyKeys (dataLine t) (Tbl.keys m.data)).dirtyKeys (dataLine t) (Tbl.keys d)).setMem t { m with data := d }).setTile t {}

/-- Images, task states and the tick number start from 0; program, tables, forces, the tick set-up values and the energy
accumulators are kept (R38). -/
def State.coldInit (s : State) : State :=
  let m := s.work.mortar
  let s1 := ((s.dirtyKeys (mortarLine 0) (Tbl.keys m.input)).dirtyKeys (mortarLine 1) (Tbl.keys m.out)).dirtyKeys (mortarLine 2)
    (Tbl.keys m.exch)
  let s2 := (List.range s.tileCount).foldl (fun (s : State) t => s.initTile t) s1
  { s2 with work := { s2.work with mortar := {}, count := 0, overruns := [], errNow := 0, errLast := 0, newTriggers := [],
                                   pendingSets := [] } }

/-! ## Leaving a mode -/

/-- Hold is left (R197): stepping ends, open activations are abandoned. -/
def State.leaveHold (s : State) : State :=
  let o := s.online
  let s1 := { s with online := { o with stepping := [], stepTicks := 0, stepTickTicket := none, holdDue := false } }
  let s2 := s1.completeAll .aborted (o.stepping.map Prod.snd ++ o.stepTickTicket.toList)
  (List.range s2.tileCount).foldl (fun (s : State) t => s.abandon t) s2

/-- The lease when a mode is left (R244, R251): a standby returns to LSTATE 0 and forgets the markers it was sent; a holder that leaves for Safe, Seal, Update
or Service releases it to its tracked partner, silencing itself when the notice was not acknowledged. A holder without a
tracked partner keeps it in Safe. -/
def State.leaveLease (s : State) (next : Mode) : State :=
  let a := s.arch
  if s.md.mode = .track then
    let shown : Option Staged := s.online.staged.map fun (g : Staged) => if g.state = 4 then { g with state := 3 } else g
    { s with arch := { a with lstate := 0, tracked := false, entries := [], takeover := none, activateMark := none, modeMark := none }
             online := { s.online with sched := false, staged := shown }
             work := { s.work with pendingSets := [] } }
  else match next with
    | .safe | .seal | .update | .service =>
      if a.lstate = 5 then
        let acked := match a.release with | some (_, ok) => ok | none => false
        ({ s with arch := { a with lstate := 0, tracked := false, silenced := a.silenced || !acked } } : State).settleForwards
      else if a.lstate = 6 ∧ s.inArch ∧ next ≠ .safe then { s with arch := { a with lstate := 0 } }
      else s
    | _ => s

/-- What leaving the present mode for another does. -/
def State.leaveMode (s : State) (next : Mode) : State :=
  let s1 := if s.md.mode = .hold then s.leaveHold else s
  (s1.leaveLease next)

/-! ## Entering a mode -/

/-- Safe is acknowledged (R26, R41, R453): the watchdog is re-armed; a cause that persists applies again. -/
def State.acknowledgeSafe (s : State) : State :=
  let s1 := s.wdRearm
  { s1 with md := { s1.md with safeDue := s1.safeCauseStands } }

/-- Run is entered from Stop or Start (R39, R40, R240): the lease is claimed, and the first tick is a start tick whose
outputs stay safe at its T0. -/
def State.beginRun (s : State) (kind cause lost : Nat) (unk : Bool) : State :=
  let s1 := s.claim
  { s1 with arch := { s1.arch with lstate := 6, tracked := false, silenced := false }
            md := { s1.md with kind := kind, cause := cause, lost := lost, outageUnk := unk, startTick := true, holdOutputs := true } }

/-- Run from Stop (R38, R168): initialised on request or with a new program, else with the data held. -/
def State.runFromStop (s : State) (init : Bool) : State :=
  let cause := if s.md.coldCause = 4 ∨ s.md.coldCause = 5 then s.md.coldCause else if init then 2 else 0
  let s1 := { s with md := { s.md with coldCause := 0, waitsForPartner := false } }
  if cause = 0 then s1.beginRun 3 0 0 false else s1.coldInit.beginRun 2 cause 0 false

/-- Track is entered to join a holder (R239, R244). -/
def State.joinTrack (s : State) : State :=
  let s := s.abortChannels
  { s with arch := { s.arch with lstate := 1, tracked := false, dirtyLeft := none, syncDone := false, entries := [],
                                 ledgerDone := false, takeover := none }
           md := { s.md with waitsForPartner := false }
           work := { s.work with pendingSets := [] } }

/-- Track is entered by a planned handover: the former holder is tracked at once (R244, R252). -/
def State.handOver (s : State) : State :=
  let s := s.abortChannels
  { s with arch := { s.arch with lstate := 2, tracked := true, entries := [], ledgerDone := false, takeover := none, syncDone := true }
           work := { s.work with pendingSets := [] } }

end Sys2Proof.Machine
end

