-- ==== Sys2Proof/Machine/Tick.lean ====
section
/-!
DEFINITION. The two halves of a tick boundary (R46): what ends the tick that is over (its commits, its check-ins, its
consistency point), and what T0 of the next one does (its emission, and what takes effect there).
-/

namespace Sys2Proof.Machine

/-! ## The tick ends (R46, R67, R74, R403) -/

/-- The commits of the tick stand for every reader (R67). -/
def State.foldTick (s : State) : State :=
  let m := s.work.mortar
  s.setMortar { m with out := foldCommits m.out m.outNew, outNew := [], exch := foldCommits m.exch m.exchNew, exchNew := [] }

/-- Windows due to close at the boundary are judged on every tile, and what has matched is drained before the point is taken
(R46, R146–R148): the lull leaves time for both. -/
def State.settleTiles (s : State) : State :=
  (List.range s.tileCount).foldl (fun (s : State) t => (s.settle t).drainAll t) s

/-- The check-in words of the watchdog as committed (R451). -/
def State.checkWords (s : State) : Tbl Word :=
  (List.range 16).foldl (fun t j => Tbl.set 0 t j (s.outWord (0o077_040 + j))) []

/-- Task check-ins at P, in a tick in which tasks ran; check-in is suspended in Hold (R194, R451). -/
def State.checkIns (s : State) : State :=
  let new := s.checkWords
  let old := s.watchdog.words
  let s1 := if s.md.tasksRun ∧ s.md.mode ≠ .hold then s.wdCheckIn (fun j => Tbl.get 0 old j) (fun j => Tbl.get 0 new j) else s
  { s1 with watchdog := { s1.watchdog with words := new } }

/-- UTC at a boundary: train time's in TSTATE 2 and 3, else the clock's (R311). -/
def State.utcAt (s : State) (i : BoundaryInputs) : Nat × Nat :=
  if 2 ≤ s.train.tstate then (i.utcSec, i.utcSub) else (s.clock.sec, s.clock.sub)

/-- The consistency point of the tick is taken (R74, R403, R404), with UTC at P as the real-time clock has it, on which an
outage is measured (R35). -/
def State.takePoint (s : State) : State :=
  let x := s.persist
  let p : Point := { serial := x.serial + 1, count := s.work.count, utcSec := s.clock.sec, utcSub := s.clock.sub, lines := x.dirty.length,
                     left := x.dirty.length, mode := s.md.mode, sample := s.work.meter.boundary, state := s.work }
  { s with persist := { x with serial := x.serial + 1, outstanding := x.outstanding ++ [p], dirty := []
                               copyDirty := if s.arch.dirtyLeft.isSome then x.copyDirty else [] } }

/-- A holder whose ledger has not been acknowledged as good dismisses its standby (R250). -/
def State.dismissal (s : State) : State :=
  if s.arch.lstate = 5 ∧ s.arch.ledgerSent ∧ !s.arch.acked then s.untrack.event 0o001_205 0 0 0 0 else s

/-- What P does before any transition (R46, R250, R355). -/
def State.endTick (s : State) : State :=
  let s1 := s.settleTiles.foldTick.checkIns
  let s2 := if s1.md.mode = .track then s1.sendEnables true else s1.admitStations
  s2.dismissal.takePoint

/-- The set-up values written since the last boundary take effect (R45); SROK follows the P in effect (R487). -/
def State.applySetup (s : State) : State :=
  let s1 := { s with setupTick := s.setup, tick := s.work.setup }
  s1.setBank s1.power.hold

/-! ## Force changes (R186) -/

/-- The ledger entries of one change: the entry set, or the entries cleared with w7 bit 0 set (R247). -/
def forceMarksOf (table : List Force) : ForceChange → List (List Word)
  | .set f => [Force.words f]
  | .clear w o i b => (table.filter fun f => f.named w o i b).map fun f => (Force.words f).take 7 ++ [1]
  | .clearAll => table.map fun f => (Force.words f).take 7 ++ [1]

/-- Force changes of the tick take effect, and their commands complete (R186, R428). -/
def State.applyForceChanges (s : State) : State :=
  let o := s.online
  if o.forceChanges.isEmpty then s
  else
    let (table, marks) := o.forceChanges.foldl
      (fun (x : List Force × List (List Word)) c => (applyForceChange x.1 c, x.2 ++ forceMarksOf x.1 c)) (s.work.forces, [])
    let s1 := { s with work := { s.work with forces := table }
                       online := { o with forceChanges := [], forceTickets := [] }
                       arch := { s.arch with forceMarks := s.arch.forceMarks ++ marks }
                       pages := { s.pages with appendDue := true } }
    s1.completeAll .done o.forceTickets

/-! ## The next tick begins (R46) -/

/-- The tick number advances, or starts at 0 after an initialisation; a cold restart has set it already. -/
def State.advanceCount (s : State) : State := { s with work := { s.work with count := (s.work.count + 1) % 2 ^ 54 } }

/-- Error causes of the tick that ended go to the error task of the next; in Hold without tasks they accumulate (R56, R194). -/
def State.turnErrors (s : State) : State :=
  let w := s.work
  let kept := if s.md.mode = .hold ∧ !s.md.tasksRun then w.errLast else 0
  { s with work := { w with errLast := w.errNow ||| kept, errNow := 0, newTriggers := [] } }

/-- Marks for a tick that has passed. -/
def notAfter {α : Type} (now : Nat) (tick : α → Nat) (x : Option α) : Option α :=
  x.bind fun m => if (tick m + 2 ^ 36 - now) % 2 ^ 36 = 0 ∨ 2 ^ 35 ≤ (tick m + 2 ^ 36 - now) % 2 ^ 36 then none else some m

/-- What belongs to one tick starts afresh. -/
def State.freshTick (s : State) : State :=
  let a := s.arch
  { s with md := { s.md with imageClosed := false }
           tiles := Tbl.mapEntries {} (fun _ x => { x with slotsDone := [] }) s.tiles
           arch := { a with tinPassed := false, ledgerDone := false, ledgerSent := false, acked := false, entries := [],
                            rerequested := false, relayMissed := false, release := none
                            modeMark := notAfter s.tickNumber Prod.snd a.modeMark } }

/-- The output image as emitted: output forces over the committed image, where outputs follow it (R46, R183, R187). -/
def State.emitImage (s : State) : State :=
  if s.outputsLive then
    let m := s.work.mortar
    s.setMortar { m with emitted := applyForces true m.out s.work.forces }
  else s

/-- What T0 sends: the output image, station frames with the safe marker where outputs do not follow it, local outputs,
publications and pulses (R46). -/
def State.emission (s : State) (e : Int) : State :=
  let s1 := s.emitImage.clearLinks
  let s2 := (s1.emitFrames (!s1.outputsLive)).fieldBoundary
  (s2.trainBoundary e).pulsesBoundary

/-- The lowest free healthy bond of a die is its reserve from a boundary (R159). -/
def State.chooseReserves (s : State) : State :=
  (List.range s.dieCount).foldl (fun (s : State) i =>
    let d := s.die (i + 1)
    if s.noReserves then s else s.setDie (i + 1) { d with reserve := d.lowestFree }) s

/-- The mode runs tasks in the tick that begins (R22, R196, R243). -/
def State.tasksNext (s : State) : Bool :=
  match s.md.mode with
  | .run | .takeover => true
  | .track => s.arch.lstate == 2 || s.arch.lstate == 3
  | .hold => decide (0 < s.online.stepTicks)
  | _ => false

/-- The number of the tick is written as the last started one; a seal record's mark is cleared (R405, R408). -/
def State.noteStarted (s : State) : State :=
  { s with persist := { s.persist with lastStarted := s.tickNumber % 2 ^ 18, sealed_ := none } }

/-- T0 of a tick whose number and mode stand. -/
def State.beginTick (s : State) (e : Int) : State :=
  let s1 := ((s.freshTick.emission e).applyForceChanges).noteStarted.chooseReserves.wdSource
  { s1 with md := { s1.md with tasksRun := s1.tasksNext } }

end Sys2Proof.Machine
end

