-- ==== Sys2Proof/Machine/Start.lean ====
section
/-!
DEFINITION. Starting (R30–R40): the firmware slot (R461, R476, R477), settings (R478), the bond test and the tiles (R33,
R157), restore (R405–R408, R425), the mode Start ends in (R34), the resume tick (R35), and the end of Seal and Update
(R407, R475).
-/

namespace Sys2Proof.Machine

/-! ## Steps 1 to 3 -/

/-- The boot ROM accepts a slot (R461): a valid image whose signature and digests verify, an unretired maker key, and an
SVN not below the fuse. -/
def State.slotAccepted (s : State) (b verifies : Bool) : Bool :=
  match s.firmware.slot b with
  | none => false
  | some m => verifies && (match m.signer with | some k => s.makerKey k | none => false) && decide (s.firmware.svn ≤ m.svn)

/-- Step 2 (R476, R477): TRIES increments; a slot that fails its check fails its starts until TRIES is 3, and then the
other slot starts. With both slots failed three times, none starts. -/
def State.boot (s : State) (aOk bOk : Bool) : Firmware × Bool :=
  let f := s.firmware
  let ok (b : Bool) : Bool := s.slotAccepted b (if b then bOk else aOk)
  if f.tries < 3 ∧ ok f.active then ({ f with tries := f.tries + 1, failed := false }, false)
  else if f.otherTries < 3 ∧ ok (!f.active) then
    ({ f with active := !f.active, trial := false, tries := f.otherTries + 1, otherTries := 3, failed := false }, true)
  else ({ f with tries := 3, otherTries := 3, failed := true }, false)

/-- A retry of both slots in turn (R477). -/
def State.bootAgain (s : State) (aOk bOk : Bool) : Firmware × Bool :=
  let f := s.firmware
  let ok (b : Bool) : Bool := s.slotAccepted b (if b then bOk else aOk)
  if ok f.active then ({ f with failed := false }, false)
  else if ok (!f.active) then ({ f with active := !f.active, trial := false, failed := false }, true)
  else (f, false)

/-- A feed as PD1 comes on: absent until it reaches 16.8 V (R484). -/
def feedAtStart (volts : Nat) : FeedClass := if 168 ≤ volts then .inRange else .absent

/-- The registers of a channel binding (R289): the channel of an index. -/
def bindingChannel (i : Nat) : Option Nat :=
  if 0o004_000 ≤ i ∧ i ≤ 0o007_777 ∧ i % 64 ≤ 2 then some ((i - 0o004_000) / 64) else none

/-- A settings block with a format the running image does not accept is copied to its retained pages and reset (R478).
The layout of a block is not given: the retained words are free. -/
def State.resetBlock (s : State) (b : SettingsBlock) : State :=
  let p := retainedPage b.block
  let ws := (List.range 128).map fun i => Config.freeWord (s.fresh + i)
  let drop (t : Tbl (Option Word)) (i : Nat) : Tbl (Option Word) := if isSetting i then Tbl.set none t i none else t
  let unbind (cs : Tbl Channel) (i : Nat) : Tbl Channel :=
    match bindingChannel i with
    | some c => Tbl.set {} cs c { Tbl.get {} cs c with settings := {} }
    | none => cs
  let s1 := { s with setup := b.registers.foldl drop s.setup, channels := b.registers.foldl unbind s.channels
                     pages := { s.pages with words := Tbl.setMany 0 s.pages.words (64 * p) ws }
                     fresh := s.fresh + 128
                     md := { s.md with coldCause := if s.md.coldCause = 4 then 4 else 5 } }
  s1.event 0o002_206 0 0 b.block b.format

/-- The format of a settings block lies outside the range in the running manifest (R478); those of blocks 0–21, the anchors and the
revocation list, never do (R465). -/
def formatRefused (m : Manifest) (b : SettingsBlock) : Bool :=
  decide (22 ≤ b.block) && decide (b.block ≤ 62) && m.formats.any fun f => f.1 == b.block && !(decide (f.2.1 ≤ b.format) && decide (b.format ≤ f.2.2))

/-- Settings blocks at step 3 (R478). -/
def State.checkSettings (s : State) (l : List SettingsBlock) : State :=
  match s.firmware.slot s.firmware.active with
  | none => s
  | some m => (l.filter (formatRefused m)).foldl (fun (s : State) b => s.resetBlock b) s

/-- The channel bound to the safety island (R351): the island is side X, tile 0 is side Y. -/
def safetyBinding : Binding := ⟨2, 8, true, true, 0, 0o077_700⟩

/-- The settings that take effect at Start: channel bindings, the telegram table and the registers of the last Start (R282,
R289, R300). -/
def State.loadSettings (s : State) : State :=
  let bound := Tbl.mapEntries {} (fun _ (c : Channel) => ({ bind := c.settings, settings := c.settings } : Channel)) s.channels
  let c31 : Channel := { (Tbl.get {} bound 31) with bind := safetyBinding }
  { s with channels := Tbl.set {} bound 31 c31, setupStart := s.setup, setupTick := s.setup }

/-- A staged package that has not been activated is discarded at a restart, and an event is recorded (R172). -/
def State.discardStaged (s : State) : State :=
  if s.online.staged.isSome ∨ s.online.transferred then ({ s with online := {} }).named .stagedDiscarded 0 0 {} [0, 0, 0, 0] else s

/-! ## Steps 4 and 5: bonds and tiles (R33, R156–R159) -/

/-- A bond after its test at step 4: a retired one stays retired (R158). -/
def Bond.tested (b : Bond) (verdict hours : Nat) : Bond := match b.state with | .retired => b | _ => b.judged verdict hours

/-- The verdict of a bond's test at step 4. -/
def verdictAt (failed : List (Nat × Nat × Nat)) (d p : Nat) : Nat :=
  match failed.find? fun f => f.1 == d && f.2.1 == p with | some f => f.2.2 % 4 | none => 0

/-- The bond test of one die, its verdicts recorded (R157, R161). -/
def State.testDie (s : State) (failed : List (Nat × Nat × Nat)) (d : Nat) : State :=
  (List.range 4).foldl (fun (s : State) p =>
    let die := s.die d
    let v := verdictAt failed d p
    let b := die.bond p
    let b1 := b.tested v die.hours
    let s1 := (s.setDie d (die.setBond p b1)).record
      { code := .given 0o001_101, level := 1, index := d, data := [d, v * 8 + p, die.hours % 2 ^ 18, die.hours / 2 ^ 18] }
    if b1.isRetired && !b.isRetired then
      s1.record { code := .given 0o001_102, level := 1, index := d,
                  data := [d, b1.cause * 8 + p, die.hours % 2 ^ 18, die.hours / 2 ^ 18] }
    else s1) s

/-- Tiles go to healthy bonds in ascending order, and the reserve is chosen at once (R30, R159). -/
def Die.assign (x : Die) (tiles : Nat) (noReserves : Bool) : Die :=
  let healthy := (List.range 4).filter fun p => !(x.bond p).isRetired
  let run := (healthy.take tiles).zip (List.range tiles)
  let freed := healthy.foldl (fun (d : Die) p => d.setBond p { d.bond p with state := .free }) x
  let placed := run.foldl (fun (d : Die) e => d.setBond e.1 { d.bond e.1 with state := .running e.2 }) freed
  { placed with reserve := if noReserves then none else (healthy.drop tiles).head? }

/-- Steps 4 and 5 over the package. Fewer healthy bonds than tiles on a die end Start in Safe (R33). -/
def State.startBonds (s : State) (failed : List (Nat × Nat × Nat)) : State :=
  let n := s.tilesPerDie
  (List.range s.dieCount).foldl (fun (s : State) i =>
    let s1 := s.testDie failed (i + 1)
    let d := s1.die (i + 1)
    let few := decide (((List.range 4).filter fun p => !(d.bond p).isRetired).length < n)
    let s2 := s1.setDie (i + 1) (d.assign n s1.noReserves)
    { s2 with md := { s2.md with startFault := s2.md.startFault || few } }) s

/-! ## Step 6: restore (R36–R38, R405–R408, R425) -/

/-- The intent record names an increment that was cut off: the restart record says whether it was applied (R425). -/
def State.restoreIntent (s : State) : State :=
  match s.pages.intent with
  | none => s
  | some (c, q) =>
    let done := match s.pages.counterDef c with
      | some d => (s.pages.counterAt d.1 d.2).2 == q
      | none => false
    ({ s with pages := { s.pages with intent := none } }).record
      { code := .given 0o002_005, data := [c, flagNat done, q % 2 ^ 18, q / 2 ^ 18] }

/-- The last started tick count (R405): the least not below that of the point whose low 18 bits are the last-started word. -/
def Persist.lastTick (x : Persist) (p : Point) : Nat := leastWithLow p.count x.lastStarted

/-- The seal record belongs to the last complete point (R408). -/
def Persist.sealOf (x : Persist) (p : Point) : Option SealRecord :=
  match x.sealed_ with
  | some r => if r.serial = p.serial then some r else none
  | none => none

/-- MD_CFG (R40): AUTORUN and COLD. -/
def State.mdCfg (s : State) : Word := s.setupOr 0o000_101 0o000_002

/-- Why the restart is cold (R38), 0 when it is not. -/
def State.coldCause (s : State) : Nat :=
  if s.persist.complete.isNone then 3
  else if s.md.coldCause ≠ 0 then s.md.coldCause
  else if bitOf s.mdCfg 0 then 1
  else 0

/-- Restore (R406): the working state of the last complete point, or the application slot's program when no point is
valid (R429). -/
def State.restore (s : State) : State :=
  let cause := s.coldCause
  let kind (k unk : Nat) : ModeState := { s.md with foundKind := k, foundCause := cause, foundUnk := unk != 0 }
  match s.persist.complete with
  | none =>
    let s1 := { s with work := { s.pages.image with setup := s.work.setup }, md := { (kind 2 0) with lost := 0, sealedMode := none } }
    s1.coldInit
  | some p =>
    let record := s.persist.sealOf p
    let s1 := ({ s with work := { p.state with setup := s.work.setup } } : State).meterStop record.isNone
    let sealed := record.map SealRecord.mode
    if cause ≠ 0 then ({ s1 with md := { (kind 2 0) with lost := 0, sealedMode := sealed } } : State).coldInit
    else
      let unk := flagNat (!s.clock.cont)
      match record with
      | some r => { s1 with md := { (kind 0 unk) with lost := 0, sealedMode := some r.mode, foundUtc := (r.utcSec, r.utcSub) } }
      | none =>
        let lost := s.persist.lastTick p - p.count
        ({ s1 with md := { (kind 1 unk) with lost := lost, sealedMode := some p.mode, foundUtc := (p.utcSec, p.utcSub) } } : State).event
          0o002_001 0 0 (lost % 2 ^ 18) (lost / 2 ^ 18 % 2 ^ 18)

/-! ## The start sequence -/

/-- At step 7 the foreman claims every ring whose bit is set in HL_CFG.FMR (R266). -/
def State.claimRings (s : State) : State :=
  (List.range 9).foldl (fun (s : State) r =>
    if s.foremanRing r && (s.ring r).owner == noOwner then s.setRing r ((s.ring r).acquire 0) else s) s

/-- Steps 3 to 7 of R30, on the firmware slot that booted: with PD8 the outputs take their safe states (R372); a bond that mismatches while step 6 loads its tile leaves it to the
reserve bond (R41). -/
def State.startFrom (s : State) (i : StartInputs) (fallback : Bool) (abandoned : Bool) : State :=
  let s1 := { s with recorder := { s.recorder with open_ := true }, md := { s.md with fallback := fallback } }
  let s2 := (if fallback then s1.event 0o002_205 0 0 (flagNat abandoned) 3 else s1).scrubAtStart
  let s3 := ((s2.tellClock.discardStaged).checkSettings i.settings).loadSettings
  let s4 := ((s3.switch true [8, 3]).switch (s3.populated 4) [4]).updateField s3.foSafe
  let s5 := i.mismatches.foldl (fun (s : State) m => s.mismatch m.1 m.2) (s4.startBonds i.failed)
  let s6 := s5.restoreIntent.restore
  let s7 := ({ s6 with tick := s6.work.setup } : State).wdSettings.trainStart.meterStart
  (((s7.switch true [6, 7, 9]).survey i.ports i.survey).claimRings).setBank i.hold

/-- A start begins (R30): from a feed in Off or Backup, at the end of Seal, or when Update has activated its image. -/
def State.beginStart (s : State) (i : StartInputs) : State :=
  let from_ := s.md.mode
  let s0 := s.unpowered (s.domainOn 0)
  let s1 := if s0.domainOn 0 then s0.elapse i.el else s0.powerClock
  let (f, fallback) := s1.boot i.slotAOk i.slotBOk
  let s2 := { s1 with
    md := { s1.md with mode := .start, prev := from_ }
    power := { s1.power with feedA := feedAtStart i.voltsA, feedB := feedAtStart i.voltsB, voltsA := i.voltsA,
                             voltsB := i.voltsB, hold := i.hold }
    firmware := f }
  let s3 := (s2.switch true [0, 1, 2, 5]).wdStart
  if f.failed then s3 else s3.startFrom i fallback s.firmware.active

/-- FEED_PRESENT (R26, R485): a feed at 16.8 V or more for 1 ms. -/
def execFeedPresent (i : StartInputs) (s : State) : Out :=
  if !(s.md.mode = .off ∨ s.md.mode = .backup) ∨ (i.voltsA < 168 ∧ i.voltsB < 168) then .next s
  else .next (s.beginStart i)

/-- BOOT_RETRY (R477): with both slots failed, the boot ROM tries them in turn. -/
def execBootRetry (i : StartInputs) (s : State) : Out :=
  if s.md.mode ≠ .start ∨ !s.firmware.failed then .next s
  else
    let s1 := s.elapse i.el
    let (f, fallback) := s1.bootAgain i.slotAOk i.slotBOk
    let s2 := { s1 with firmware := f }
    if f.failed then .next s2 else .next (s2.startFrom i fallback s.firmware.active)

/-! ## Step 8 (R30, R34–R36, R39, R476, R477) -/

/-- Ticks that passed in the outage, none when it is unknown (R35, R36). -/
def State.outageTicks (s : State) : Nat :=
  if s.md.foundUnk then 0
  else
    let now := s.clock.sec * 2 ^ 18 + s.clock.sub
    let then_ := s.md.foundUtc.1 * 2 ^ 18 + s.md.foundUtc.2
    (now - then_) * 1000000 / 2 ^ 18 / max 1 s.tick.period

/-- The mode Start ends in (R34). `alone`: as if it had no partner (R238). A cold restart of a Keystone sealed in Safe ends in
Safe, for Safe is left by its acknowledgement alone (R26); of one sealed in Hold, Service or Update in Stop (R29). DESIGN
CHOICE: sealed in Stop, the row of the cold restart holds, not the row of the seal. -/
def State.startMode (s : State) (alone : Bool) : Mode :=
  let holds := s.partnerHolds && !alone
  let running : Mode :=
    if holds && s.partnerRuns && s.arch.paired then .track
    else if holds then .stop
    else if s.claimed.isNone then .stop
    else .run
  if s.md.startFault || s.md.safePending then .safe
  else match s.md.sealedMode with
    | some .safe => .safe
    | some .hold | some .service | some .update => .stop
    | some .run | some .track | some .takeover => if s.md.foundKind = 2 ∧ !bitOf s.mdCfg 1 then .stop else running
    | _ => if s.md.foundKind = 2 ∧ bitOf s.mdCfg 1 then running else .stop

/-- Start ended in Stop only because the partner holds the lease (R34). -/
def State.startWaits (s : State) (alone : Bool) : Bool :=
  !alone && s.partnerHolds && decide (s.startMode false = .stop) && decide (s.startMode true = .run)

/-- The firmware's trial ends well: TRIES and TRIAL clear, RAISE raises the fuse counter (R476, R477). A start that ends
in Safe under R33 has failed. -/
def State.endTrial (s : State) : State :=
  let f := s.firmware
  if s.md.startFault then s
  else
    let s1 := { s with firmware := { f with tries := 0, otherTries := 0, trial := false } }
    if !f.trial then s1
    else
      let s2 := s1.event 0o002_203 0 0 (versionWord (f.slot f.active)) f.before
      match f.slot f.active with
      | some m =>
        if m.raise ∧ f.svn < m.svn then
          ({ s2 with firmware := { s2.firmware with svn := m.svn } }).event 0o002_207 0 0 1 m.svn
        else s2
      | none => s2

/-- Step 8: the resume tick, the first T0 and the mode. -/
def State.finishStart (s : State) (i : BoundaryInputs) (alone : Bool) : State :=
  let m := s.startMode alone
  let md := s.md
  let prev := md.prev
  let n := if md.foundKind = 2 then s.work.count else (s.work.count + 1 + s.outageTicks) % 2 ^ 54
  let s1 := { s with work := { s.work with count := n }
                     md := { md with safePending := false, coldCause := 0, waitsForPartner := s.startWaits alone
                                     kind := md.foundKind, cause := md.foundCause, outageUnk := md.foundUnk }
                     arch := { s.arch with lstate := if s.inArch then 0 else 6, electing := false } }
  let s2 := match m with
    | .run => s1.beginRun md.foundKind md.foundCause md.lost md.foundUnk
    | .track => s1.joinTrack
    | _ => s1
  let s3 := (s2.toMode m .start {}).endTrial
  (({ s3 with md := { s3.md with prev := prev } } : State).turnErrors).beginTick i.e

/-- START_COMPLETE (R30, R31, R34, R238): the seal reserve must stand; an election's loser waits until the winner runs. -/
def execStartComplete (i : BoundaryInputs) (s : State) : Out :=
  let s := s.elapse i.el
  if s.md.mode ≠ .start ∨ s.firmware.failed ∨ !s.power.srok ∨ (s.arch.electing ∧ !s.partnerRuns) then .next s
  else .next (s.finishStart i false)

/-- ELECTION_TIMEOUT (R238): the loser ends Start as if it had no partner. -/
def execElectionTimeout (i : BoundaryInputs) (s : State) : Out :=
  let s := s.elapse i.el
  if s.md.mode ≠ .start ∨ s.firmware.failed ∨ !s.power.srok ∨ !s.arch.electing then .next s
  else .next (s.finishStart i true)

/-! ## The end of Seal and Update (R407, R475) -/



/-- The flush of R407: outstanding points, queued records, the seal event, the seal record with the mode at entry. -/
def State.flush (s : State) (entry : Mode) (time : Nat) : State :=
  let x := s.persist
  let last := (x.outstanding.getLast?).orElse fun _ => x.complete
  let record := last.map fun p => (⟨p.serial, entry, p.utcSec, p.utcSub, p.sample⟩ : SealRecord)
  let s1 := { (if s.pages.busy then s.endPage else s) with persist := { x with outstanding := [], complete := last, lagging := false } }
  let s3 := (s1.event 0o002_000 0 0 entry.code (min 0o777_777 time)).writeQueue
  { s3 with persist := { s3.persist with sealed_ := record }, clock := s3.clock.setCont true }

/-- The boot record names the new slot, on trial (R475). -/
def State.switchSlot (s : State) : State :=
  let f := s.firmware
  { s with firmware := { f with
                                before := versionWord (f.slot f.active)
                                active := !f.active
                                trial := true
                                tries := 0
                                otherTries := 0
                                transfer := f.transfer.bind fun t => if t.program then some t else none
                                imageIn := false
                                armed := none } }

/-- SEAL_COMPLETE (R407, R475): `flush` in 0.1 ms. With a feed, Start begins at once; without, Backup or Off. In Update the
flush is step 1, and the boot record is then written. The transition itself is recorded (R23) before the recorder closes. -/
def execSealComplete (feed : Option StartInputs) (backup : Bool) (flush : Nat) (s : State) : Out :=
  if s.md.mode ≠ .seal ∧ s.md.mode ≠ .update then .next s
  else
    let s1 := s.flush (s.md.sealFrom.getD .stop) flush
    let s2 := if s1.md.mode = .update then s1.switchSlot else s1
    match feed with
    | some i => .next ((s2.tellMode .start .start).writeQueue.beginStart i)
    | none => .next (s2.goDark backup .power)

end Sys2Proof.Machine
end

