-- ==== Sys2Proof/Machine/Boundary.lean ====
section
/-!
DEFINITION. The tick boundary (R25, R28, R46): the one transition taken, the activation of an online change (R174–R176,
R199, R259), the markers of the arch (R252, R261), and the boundary of a takeover (R255, R256).
-/

namespace Sys2Proof.Machine

/-! ## The transition of a boundary (R28) -/

/-- A transition due: where to, why, and the request behind it. -/
structure Due where
  target : Mode
  cause : ModeCause
  request : Option ModeRequest := none

/-- A mode marker of the ledger names this boundary (R252, R261). -/
def State.markHere (s : State) (k : Nat) : Bool :=
  s.arch.modeMark == some (k, (s.tickNumber + 1) % Config.tickModulus)

/-- Update is due (R261, R474): an armed activation of a Keystone not configured in an arch, or in Stop without the lease;
in an arch the marker takes the standby, and the former holder follows in Track. -/
def State.updateHere (s : State) (utc : Nat) : Bool :=
  if s.inArch then
    (decide (s.md.mode = .stop) && !s.holds && s.updateDue utc) ||
      (decide (s.md.mode = .track) && s.firmware.imageReady && (s.markHere 3 || (s.firmware.marked && s.arch.lstate == 2)))
  else s.updateDue utc

/-- A request whose transition is still the one requested, and whose condition holds (R26, R28). -/
def State.requestDue (s : State) (r : ModeRequest) : Bool :=
  !r.wait && decide (r.made = s.md.mode) && (requestRight s.md.mode r.target).isSome &&
    (match s.requestTarget r.target with | .ok m => m == r.target | .error _ => false)

/-- The transition a boundary takes (R28): Seal, Safe, Stop by stale epoch or lost tracking, Update, a breakpoint's Hold,
requests in arrival order, markers, and Track without a request (R34). -/
def State.due (s : State) (utc : Nat) : Option Due :=
  let m := s.md.mode
  let runs := decide (m = .run) || decide (m = .hold)
  if s.md.sealDue then some { target := .seal, cause := .seal }
  else if s.md.safeDue && m != .safe then some { target := .safe, cause := .fault }
  else if s.md.staleDue && runs then some { target := .stop, cause := .stale }
  else if s.md.stopDue && (runs || m == .track) then some { target := .stop, cause := .trackingLost }
  else if s.updateHere utc then some { target := .update, cause := .update }
  else if s.online.holdDue && m == .run && s.arch.lstate != 5 then some { target := .hold, cause := .breakpoint }
  else match s.md.requests.find? s.requestDue with
    | some r => some { target := r.target, cause := .request, request := some r }
    | none =>
      if s.markHere 1 && (m == .track || m == .run) then some { target := .stop, cause := .stopMarker }
      else if s.markHere 2 && m == .run && s.arch.lstate == 5 then some { target := .track, cause := .handover }
      else if m == .stop && s.md.waitsForPartner && bitOf s.arCfg 15 && s.arch.paired && s.partnerRuns then
        some { target := .track, cause := .automatic }
      else none

/-- The session that asks for Service (R26). -/
def ModeRequest.session (r : ModeRequest) : Option Nat := match r.ticket.origin with | .session id => some id | _ => none

/-- What entering a mode does beside leaving the last one (R22–R40): entry to Stop or Safe resets every tile (R165). -/
def State.enterTarget (s : State) (d : Due) : State :=
  match d.target with
  | .safe => ({ s with md := { s.md with safeDue := false } }).tileResets (List.range s.tileCount)
  | .stop =>
    let s := s.tileResets (List.range s.tileCount)
    match s.md.mode, d.cause with
    | .safe, _ => s.acknowledgeSafe
    | _, .stale => { s with arch := { s.arch with lstate := 0, tracked := false } }
    | _, .trackingLost => { s with arch := { s.arch with lstate := 0, tracked := false } }
    | _, _ => s.untrack
  | .run => if s.md.mode = .stop then s.runFromStop (match d.request with | some r => r.init | none => false) else s
  | .hold => { s with island := { s.island with heldEnables := s.island.requested } }
  | .track => if s.md.mode = .stop then s.joinTrack else s.handOver
  | .update =>
    let s1 := s.meterLeave
    { s1 with md := { s1.md with sealFrom := some s.md.mode }, firmware := { s1.firmware with activating := true, marked := false } }
  | .service =>
    let s1 := s.meterLeave
    { s1 with md := { s1.md with serviceSession := d.request.bind ModeRequest.session } }
  | _ => s

/-- Enter the mode due; its request completes DONE at the boundary (R27). -/
def State.enterDue (s : State) (d : Due) : State :=
  let cred : Cred := match d.request with | some r => ⟨r.role, r.fp⟩ | none => {}
  let s1 := s.leaveMode d.target
  let s2 := if d.target = .seal then s1.enterSeal else (s1.enterTarget d).toMode d.target d.cause cred
  match d.request with | some r => s2.complete r.ticket .done | none => s2

/-- Causes that a boundary has judged; a Safe cause that lost to Seal is sealed with the state (R28). -/
def State.clearCauses (s : State) : State :=
  { s with md := { s.md with safePending := s.md.safePending || (s.md.sealDue && s.md.safeDue && s.md.mode != .safe)
                             safeDue := false, staleDue := false, sealDue := false, stopDue := false }
           online := { s.online with holdDue := false } }

/-- Requests that did not win complete REFUSED (R28): every other one where a transition is `taken`, else those that do not
wait for their marker. -/
def State.refuseRequests (s : State) (taken : Bool) (won : Option ModeRequest) : State :=
  let lost := (s.md.requests.filter fun r => (taken || !r.wait) && some r != won).map ModeRequest.ticket
  let s1 := { s with md := { s.md with requests := s.md.requests.filter fun r => !taken && r.wait } }
  let s2 := s1.completeAll (.refused 0) lost
  { s2 with firmware := { s2.firmware with activating := false } }

/-- The transition of this boundary, if any. -/
def State.transition (s : State) (utc : Nat) : State :=
  let d := s.due utc
  let s1 := (s.clearCauses).refuseRequests d.isSome (d.bind Due.request)
  let s2 := { s1 with md := { s1.md with startTick := false, holdOutputs := false } }
  match d with
  | some x => s2.enterDue x
  | none => s2

/-! ## STEP_TICK (R196) -/

/-- A tick run by STEP_TICK has ended; a breakpoint stop ends the run early. -/
def State.countStepTick (s : State) : State :=
  if s.md.mode = .hold ∧ s.md.tasksRun then
    let n := if s.online.holdDue then 0 else s.online.stepTicks - 1
    if n = 0 then
      ({ s with online := { s.online with stepTicks := 0, stepTickTicket := none } }).completeAll .done s.online.stepTickTicket.toList
    else { s with online := { s.online with stepTicks := n } }
  else s

/-! ## Activation of an online change at T0 (R174–R176, R199, R252) -/

/-- An armed ACTIVATE ends REFUSED; the package stays ready. OC_STAT shows a code of R173. -/
def State.refuseActivation (s : State) (code : Nat) : State :=
  let o := s.online
  let ready : Option Staged := o.staged.map fun (g : Staged) => { g with state := 3 }
  let s1 := { s with online := { o with armed := none, sched := false, staged := ready }
                     arch := { s.arch with activateMark := none } }
  (if code = 0 then s1 else s1.noteRefusal { code := code }).completeAll (.refused code) o.armed.toList

/-- The activation takes effect; its command completes (R174). -/
def State.performActivation (s : State) (g : Staged) : State :=
  let k := s.online.armed.toList
  let s1 := ({ s with online := { s.online with armed := none } } : State).activateNow g
  ({ s1 with arch := { s1.arch with activateMark := none } }).completeAll .done k

/-- The mode allows an activation (R174); by the marker of the ledger a standby and the Keystone that takes over too (R175, R259). -/
def State.activationMode (s : State) (marked : Bool) : Bool :=
  match s.md.mode with | .stop | .run => true | .hold => !s.anyOpen | .track | .takeover => marked | _ => false

/-- The activation at this T0: by the marker on both Keystones of an arch; by its command otherwise. A holder with a
tracked standby first places the marker in the ledger of the tick before (R175). -/
def State.activation (s : State) : State :=
  let o := s.online
  let n := s.tickNumber
  match o.staged with
  | none => s
  | some g =>
    if s.arch.activateMark == some (g.pkg.id, n) ∧ s.activationMode true then s.performActivation g
    else if o.armed.isNone then s
    else if o.sched && o.atk == n then
      if s.md.mode = .hold ∧ s.anyOpen then s.refuseActivation 16
      else if !s.activationMode false then s.refuseActivation 0
      else if s.arch.lstate = 5 then s.refuseActivation 17
      else s.performActivation g
    else if o.sched && !inFuture n o.atk then s.refuseActivation 16
    else if o.sched then s
    else if !s.activationMode false then s.refuseActivation 0
    else if s.arch.lstate = 5 then s
    else s.performActivation g

/-! ## Mode markers (R252, R261) -/

/-- The update-permitted bit of the committed output image (R474). -/
def State.updatePermitted (s : State) : Bool := bitOf (s.outWord 0o077_020) 0

/-- The activation scheduled for a group has come due on a holder (R261). -/
def State.groupUpdateDue (s : State) (utc : Nat) : Bool :=
  match s.firmware.armed with
  | some a => decide (a.at_ ≤ utc) && !a.passed utc && s.firmware.imageReady
  | none => false

/-- Markers placed in the ledger of the tick that begins: those of waiting requests, the update marker, and the handover
to a standby tracked on the new firmware (R252, R261). -/
def State.markModes (s : State) (utc : Nat) : State :=
  let next := (s.tickNumber + 1) % Config.tickModulus
  let put (k : Nat) : State := { s with arch := { s.arch with modeMark := some (k, next) } }
  if s.arch.modeMark.isSome then s
  else match s.md.requests.find? fun r => r.wait && (s.markOf r.target).isSome with
    | some r =>
      { put ((s.markOf r.target).getD 1) with md := { s.md with requests := s.md.requests.map fun x =>
          if x == r then { x with wait := false } else x } }
    | none =>
      if s.md.mode ≠ .run ∨ s.arch.lstate ≠ 5 ∨ !s.updatePermitted then s
      else if s.firmware.marked then (if bitOf s.arCfg 14 then put 2 else s)
      else if s.groupUpdateDue utc then
        let s1 := put 3
        { s1 with firmware := { s1.firmware with marked := true } }
      else s

/-- A request whose marker is no longer needed takes effect at the next boundary. -/
def State.releaseRequests (s : State) : State :=
  { s with md := { s.md with requests := s.md.requests.map fun r => if (s.markOf r.target).isNone then { r with wait := false } else r } }

/-- The standby leaves for Update at this boundary, as the marker told it (R261). -/
def State.partnerUpdates (s : State) : State := if s.markHere 3 then s.untrack else s

/-! ## TICK_BOUNDARY (R46) -/

/-- The tick that is over ends; set-up values and the transition of the boundary take effect. -/
def State.boundary (s : State) (i : BoundaryInputs) : State :=
  let s1 := (s.endTick.applySetup).countStepTick.turnErrors
  ((s1.partnerUpdates).expireActivation (s1.utcAt i).1).transition (s1.utcAt i).1

/-- A cold restart from Stop has set the tick number to 0 (R38). -/
def State.coldEntry (s : State) : Bool := decide (s.md.mode = .run) && s.md.startTick && s.md.kind == 2

/-- From the tick after a takeover's first the own copy leaves at T0 + 1.0 µs, with each OFFSET lowered by 800 units (R256). -/
def State.lowerOffsets (s : State) : State :=
  if !s.arch.offsetsLower then s
  else
    { s with arch := { s.arch with offsetsLower := false }
             stations := Tbl.mapEntries {} (fun _ x =>
               { x with offset := if x.offset = offsetUnknown then offsetUnknown else x.offset - 800 }) s.stations }

/-- T0 of the next tick. Where no tick runs, local outputs go to their safe states, no frame leaves, and the link ports are down in
Update and Service (R22, R76, R211). -/
def State.nextTick (s : State) (i : BoundaryInputs) : State :=
  if !s.md.mode.ticks then
    let s1 := (s.clearLinks.updateField s.foSafe).completeAll (.refused 0) (s.md.requests.map ModeRequest.ticket)
    ({ s1 with md := { s1.md with requests := [], tasksRun := false, imageClosed := false }
               links := if s1.portsOn then s1.links else s1.downLinks } : State).wdSource
  else
    let s1 := if s.coldEntry then s else s.advanceCount
    let s2 := (s1.lowerOffsets.beginTick i.e).activation
    s2.releaseRequests.markModes (s2.utcAt i).1

/-- TICK_BOUNDARY (R46). In LSTATE 4 the boundary is that of the takeover (R255). -/
def execTickBoundary (i : BoundaryInputs) (s : State) : Out :=
  let s := s.elapse i.el
  if !s.md.mode.ticks ∨ s.arch.lstate = 4 then .next s else .next ((s.boundary i).nextTick i)

/-! ## TAKEOVER_BOUNDARY (R255–R259) -/

/-- Where T0' falls (R255): whether the tick number advances, and the slip in 10 ns. `tx` is the instant of expiry or of
the notice, in 10 ns from the last nominal boundary. -/
def State.takeoverSlip (s : State) (tx : Nat) : Bool × Nat :=
  let p := 100 * s.tick.period
  match s.arch.takeover with
  | some ⟨2, _⟩ => (true, 0)
  | _ => if s.arch.relayMissed ∧ tx ≤ 2800 then (false, tx + 400) else (true, max p (tx + 400) - p)

/-- Without the marker an online change is not activated by the new holder (R259). -/
def State.missActivation (s : State) (n : Nat) : State :=
  let o := s.online
  match o.staged with
  | some g =>
    if g.state ≠ 4 ∨ s.arch.activateMark = some (g.pkg.id, n) then s
    else ({ s with online := { o with sched := false, staged := some { g with state := 3 } } }).named .activationMissed 0 0 {}
      [g.pkg.id % 2 ^ 18, g.pkg.id / 2 ^ 18, s.tickNumber % 2 ^ 18, s.tickNumber / 2 ^ 18]
  | none => s

/-- The standby takes over (R256): Takeover is passed, AR_TKO and the interval's TKO flag tell it, and with its first
frame it is in Run in LSTATE 6. The lease's reclaimed mark is delivered with its acquisition (R166). -/
def State.takeOver (s : State) (slip : Nat) : State :=
  let us := (slip + 99) / 100
  let cause := match s.arch.takeover with | some t => t.cause | none => 0
  let s1 := ((s.toMode .takeover .takeover {}).event 0o001_200 0 0 cause us).toMode .run .takeover {}
  { s1 with arch := { s1.arch with lstate := 6, tracked := false, takeover := none, slip := min 63 us, leasePrev := none
                                   takeovers := min 4095 (s1.arch.takeovers + 1), offsetsLower := true }
            work := { s1.work with meter := { s1.work.meter with flags := s1.work.meter.flags ||| 8 } } }

/-- TAKEOVER_BOUNDARY (R255, R256): Seal, Safe and a failed claim come first (R28, R240). The tick in progress is not over
when the boundary missed its relay. The acknowledgement bits as committed admit stations (R227). -/
def execTakeoverBoundary (tx : Nat) (i : BoundaryInputs) (s : State) : Out :=
  let s := s.elapse i.el
  if s.md.mode ≠ .track ∨ s.arch.lstate ≠ 4 then .next s
  else
    let (advances, slip) := s.takeoverSlip tx
    let s1 := s.applyPending []
    let s2 := (if advances then (s1.endTick.applySetup).turnErrors else s1).admitStations
    if s2.md.sealDue ∨ s2.md.safeDue ∨ s2.md.stopDue then .next ((s2.transition (s2.utcAt i).1).nextTick i)
    else
      let s3 := (s2.clearCauses.refuseRequests true none).takeOver slip
      let s4 := { (if advances then s3.advanceCount else s3) with md := { s3.md with startTick := false, holdOutputs := false } }
      .next (((s4.missActivation s4.tickNumber).beginTick i.e).activation)

end Sys2Proof.Machine
end

