-- ==== Sys2Proof/Machine/Registers.lean ====
section
/-!
DEFINITION. The set-up space (R503–R512): what every register reads as, the latches of the 36-bit registers, and the writes
of registers without a row of their own; MB_BIND_SET; and the host link's state (R165, R267).
-/

namespace Sys2Proof.Machine

/-! ## What the registers read as -/

/-- ID_FEAT0–ID_FEAT3 (R138): set at step 3 of the start, 0 before. -/
def State.readFeatures (s : State) (n : Nat) : Word :=
  if !s.recorder.open_ then 0
  else match n with
    | 0 => word (fieldAt s.tileCount 6 + fieldAt (flagNat (!s.noReserves)) 5 + fieldAt s.dieCount 2 + s.variant)
    | 1 => word (fieldAt 1 6 + 1)
    | 2 => word (versionWord (s.firmware.slot s.firmware.active))
    | 3 => word Config.packageRevision.toNat
    | _ => 0

/-- The mode registers (R24, R37, R40). -/
def State.readModes (s : State) (n : Nat) : Word :=
  let d := s.md
  match n with
  | 0 => word (fieldAt d.prev.code 12 + fieldAt s.role 10 + fieldAt (flagNat (decide (s.noReserve ≠ 0))) 8 + d.mode.code)
  | 1 => s.mdCfg
  | 2 => word (fieldAt (flagNat d.fallback) 9 + fieldAt d.cause 5 + fieldAt (flagNat d.outageUnk) 2 + d.kind)
  | 3 => lowWord d.lost
  | 4 => highWord d.lost
  | _ => 0

/-- Distance from the current tick to the last complete point (R77). -/
def State.writeBehindDistance (s : State) : Nat :=
  match s.persist.complete with
  | some p => min 0o777_777 (s.work.count - p.count)
  | none => 0

/-- The tick registers (R45, R61, R77). -/
def State.readTick (s : State) (n : Nat) : Word :=
  let p := s.work.setup
  match n with
  | 0 => lowWord p.period
  | 1 => highWord p.period
  | 2 => word p.latch
  | 3 => word p.inwin
  | 4 => word (flagNat p.lock)
  | 5 => word (fieldAt (flagNat (decide (p ≠ s.tick))) 2 + fieldAt (flagNat s.inArch) 1 + flagNat s.locked)
  | 6 => lowWord s.tickNumber
  | 7 => highWord s.tickNumber
  | 8 => word s.era
  | 9 => word (fieldAt s.ovrTile 13 + fieldAt s.ovrConsec 11 + fieldAt (flagNat s.ovrValid) 8 + s.ovrTask)
  | 10 => word s.writeBehindDistance
  | _ => 0

/-- The bond registers (R155, R161). -/
def State.readBonds (s : State) (n : Nat) : Word :=
  match n with
  | 0 => word s.noReserve
  | 1 => lowWord s.migrations
  | 2 => highWord s.migrations
  | 3 => word s.retiredBonds
  | _ => 0

/-- The tiles with an open activation, as HD_STOP0 and HD_STOP1 show them (R197). -/
def State.openTiles (s : State) (first n : Nat) : Nat :=
  (List.range n).foldl (fun v i => v + fieldAt (flagNat (s.tile (first + i)).isOpen) i) 0

/-- Online change, forces and hold (R180, R189, R197). -/
def State.readOnline (s : State) (n : Nat) : Word :=
  let o := s.online
  let p := s.work.program
  match n with
  | 0 => word (fieldAt o.refusal.code 12 + fieldAt o.refusal.tile 7 + fieldAt (flagNat o.archReady) 5 + fieldAt (flagNat o.sched) 4 +
      (o.staged.map Staged.state).getD 0)
  | 1 => lowWord o.atk
  | 2 => highWord o.atk
  | 3 => lowWord p.id
  | 4 => highWord p.id
  | 5 => word p.gen
  | 8 => word (fieldAt (flagNat (!s.work.forces.isEmpty)) 11 + s.work.forces.length)
  | 16 => s.setupOr 0o000_420 1
  | 17 => word (s.openTiles 0 18)
  | 18 => word (s.openTiles 18 10)
  | _ => if 24 ≤ n ∧ n ≤ 39 then s.setupOr (0o000_400 + n) 0 else 0

/-- Station links (R231). -/
def State.readLinks (s : State) (n : Nat) : Word :=
  if n = 0 then s.setupOr 0o000_500 0o104_265
  else if 8 ≤ n ∧ n < 24 then s.setupOr (0o000_500 + n) 0o000_003
  else if 24 ≤ n ∧ n < 40 then
    let x := s.link (n - 24)
    word (fieldAt (flagNat x.late) 17 + fieldAt (flagNat x.fcsErr) 16 + fieldAt (flagNat x.stale) 15 +
      fieldAt (flagNat x.broken) 14 + fieldAt x.turner 9 + fieldAt (flagNat x.relay) 8 + fieldAt (flagNat x.cross) 7 +
      x.presentCount)
  else if 40 ≤ n ∧ n < 56 then
    let x := s.link (n - 40)
    word (fieldAt (signedField 9 (max (-256) (min 255 x.outm))) 9 + signedField 9 (max (-256) (min 255 x.inm)))
  else 0

/-- The arch (R263). -/
def State.readArch (s : State) (n : Nat) : Word :=
  let a := s.arch
  match n with
  | 0 => s.setupOr 0o000_600 0o140_000
  | 1 => word (fieldAt a.lstate 15 + fieldAt (flagNat a.heard) 14 + fieldAt (flagNat a.aliveIn) 13 +
      fieldAt (flagNat a.tracked) 12 + fieldAt (flagNat a.relmiss) 11 + fieldAt a.pairErr 7 + fieldAt (flagNat a.diverged) 6)
  | 2 => lowWord a.epoch
  | 3 => highWord a.epoch
  | 4 => word (fieldAt (flagNat a.aup) 17 + fieldAt (flagNat a.bup) 16 + fieldAt (min 15 a.adly) 4 + min 15 a.bdly)
  | 5 => word (min 0o777_777 a.lag)
  | 10 => word (fieldAt (min 63 a.slip) 12 + min 4095 a.takeovers)
  | _ => if 6 ≤ n ∧ n ≤ 9 then s.setupOr (0o000_600 + n) 0 else 0

/-- One ring register (R281), without the side effect of RCLM. -/
def Ring.readWord (g : Ring) : Nat → Word
  | 0 => g.ctl
  | 1 => lowWord g.cb
  | 2 => highWord g.cb
  | 3 => lowWord g.qb
  | 4 => highWord g.qb
  | 5 => word g.cpi
  | 6 => word g.cci
  | 7 => word g.qpi
  | 8 => word g.qci
  | 9 => word g.tdone
  | 10 => word g.tfail
  | 11 => word g.orph
  | _ => 0

/-- A messages-pending or messages-taken word for a master: 18 channels from `first` (R289). -/
def State.mailBits (s : State) (first n : Nat) (p : Channel → Bool) : Word :=
  word ((List.range n).foldl (fun v i => v + fieldAt (flagNat (p (s.channel (first + i)))) i) 0)

/-- A message is pending for master `m` on a channel. -/
def Channel.pendingFor (m : Nat) (c : Channel) : Bool := (c.bind.y == m && c.dirX.go) || (c.bind.x == m && c.dirY.go)
/-- A message of master `m` has been taken on a channel. -/
def Channel.takenOf (m : Nat) (c : Channel) : Bool := (c.bind.x == m && c.dirX.taken) || (c.bind.y == m && c.dirY.taken)

/-- Mailbox summary and host link (R281, R289). -/
def State.readSummary (s : State) (m n : Nat) : Word :=
  match n with
  | 0 => s.mailBits 0 18 (Channel.pendingFor m)
  | 1 => s.mailBits 18 14 (Channel.pendingFor m)
  | 2 => s.mailBits 0 18 (Channel.takenOf m)
  | 3 => s.mailBits 18 14 (Channel.takenOf m)
  | 4 => word s.refusedSends
  | 5 => word s.ignored
  | 6 => s.setupOr 0o001_406 0o000_777
  | 7 => word (fieldAt s.hostLink.width 2 + fieldAt (flagNat s.hostLink.gen2) 1 + flagNat s.hostLink.up)
  | _ => 0

/-- One register of a channel (R289), without the side effects of RCLM and the withdrawal result. EN shows whether the channel
is enabled (R282). -/
def Channel.readWord (c : Channel) (tiles w : Nat) : Word :=
  let b := c.bind
  match w with
  | 0 => word (fieldAt b.x 12 + fieldAt b.y 6 + fieldAt (flagNat b.len16) 5 + fieldAt (flagNat (b.usable tiles)) 4)
  | 1 => word b.ibx
  | 2 => word b.iby
  | 4 => c.dirX.ctl
  | 5 => c.dirY.ctl
  | 6 => c.dirX.wres
  | 7 => c.dirY.wres
  | _ =>
    if 16 ≤ w ∧ w < 32 then Tbl.get 0 c.dirX.msg (w - 16)
    else if 32 ≤ w ∧ w < 48 then Tbl.get 0 c.dirY.msg (w - 32)
    else 0

/-- The non-volatile memories (R404, R430). -/
def State.readMemories (s : State) (n : Nat) : Word :=
  let point := (s.persist.complete.map Point.count).getD 0 % Config.tickModulus
  let p := s.pages
  match n with
  | 0 => lowWord point
  | 1 => highWord point
  | 8 => s.setupOr 0o013_410 0o000_024
  | 9 => lowWord s.recorder.seq
  | 10 => highWord s.recorder.seq
  | 11 => lowWord s.recorder.ovw
  | 12 => highWord s.recorder.ovw
  | 16 => word (fieldAt (flagNat p.busy) 17 + fieldAt (flagNat p.scrub) 16 + fieldAt (flagNat (s.arch.lstate == 5 && !p.unmirrored.isEmpty)) 15 +
      (if p.busy then p.writing.getD 0 else 0))
  | 17 => word (fieldAt (flagNat (decide (p.grant ≠ noOwner))) 17 + p.grant)
  | 18 => word s.scrubDays
  | 19 => word (min 0o777_777 p.ref)
  | 24 => word (fieldAt (flagNat p.appSlot) 1 + flagNat s.firmware.active)
  | _ => 0

/-- The domain that the status fields of a register come from, where it can be off while the footing die answers (R490, R507). The reset
value of each of these fields is 0. -/
def statusDomain (idx : Nat) : Option Nat :=
  let within (a b : Nat) : Bool := decide (a ≤ idx) && decide (idx ≤ b)
  if within 0o000_530 0o000_567 then some 7
  else if within 0o010_003 0o010_004 then some 6
  else if within 0o010_400 0o010_577 ∧ 7 ≤ (idx - 0o010_400) % 16 then some 7
  else if within 0o011_000 0o011_177 ∧ 5 ≤ (idx - 0o011_000) % 16 then some 7
  else if within 0o012_000 0o012_002 ∨ idx = 0o012_007 ∨ idx = 0o012_411 then some 8
  else if idx = 0o013_022 then some 9
  else if idx = 0o013_420 then some 5
  else none

/-- The value of the register at an index for a master and its right, with every domain on (R503, R508, R509): no latch, no side
effect. A reserved index reads 0. -/
def State.sourceReg (s : State) (m right idx : Nat) : Word :=
  if idx < 0o000_020 then 0
  else if idx ≤ 0o000_023 then s.readFeatures (idx - 0o000_020)
  else if idx < 0o000_100 then 0
  else if idx ≤ 0o000_104 then s.readModes (idx - 0o000_100)
  else if idx < 0o000_200 then 0
  else if idx ≤ 0o000_212 then s.readTick (idx - 0o000_200)
  else if idx < 0o000_300 then 0
  else if idx ≤ 0o000_303 then s.readBonds (idx - 0o000_300)
  else if idx < 0o000_400 then 0
  else if idx ≤ 0o000_447 then s.readOnline (idx - 0o000_400)
  else if idx < 0o000_500 then 0
  else if idx ≤ 0o000_567 then s.readLinks (idx - 0o000_500)
  else if idx < 0o000_600 then 0
  else if idx ≤ 0o000_612 then s.readArch (idx - 0o000_600)
  else if idx < 0o000_700 then 0
  else if idx ≤ 0o000_777 then (s.lock (idx - 0o000_700)).value false
  else if idx ≤ 0o001_217 then (s.ring ((idx - 0o001_000) / 16)).readWord (idx % 16)
  else if idx < 0o001_300 then 0
  else if idx ≤ 0o001_377 then s.setupOr idx 0
  else if idx ≤ 0o001_407 then s.readSummary m (idx - 0o001_400)
  else if idx < 0o002_000 then 0
  else if idx ≤ 0o003_777 then s.setupOr idx 0
  else if idx ≤ 0o007_777 then (s.channel ((idx - 0o004_000) / 64)).readWord s.tileCount (idx % 64)
  else if idx ≤ 0o010_006 then s.readTrain idx
  else if idx < 0o010_400 then 0
  else if idx ≤ 0o010_604 then s.readCan idx
  else if idx < 0o011_000 then 0
  else if idx ≤ 0o011_204 then s.readSerial idx
  else if idx < 0o012_000 then 0
  else if idx ≤ 0o012_010 then s.readIsland idx
  else if idx < 0o012_400 then 0
  else if idx ≤ 0o012_411 then s.readField idx
  else if idx < 0o013_000 then 0
  else if idx ≤ 0o013_022 then s.readMeter idx
  else if idx < 0o013_400 then 0
  else if idx ≤ 0o013_430 then s.readMemories (idx - 0o013_400)
  else if idx < 0o014_000 then 0
  else if idx ≤ 0o014_067 then s.readClock m right idx
  else if idx < 0o014_100 then 0
  else if idx ≤ 0o014_137 then s.readWatchdog idx
  else if idx < 0o014_400 then 0
  else if idx ≤ 0o014_430 then s.readUpdate idx
  else if idx < 0o015_000 then 0
  else if idx ≤ 0o015_006 then s.readPower idx
  else 0

/-- The live value of the register at an index: a status field whose source is off reads its reset value (R507). -/
def State.liveReg (s : State) (m right idx : Nat) : Word :=
  if (statusDomain idx).any fun d => !s.domainOn d then 0 else s.sourceReg m right idx

/-- The key of a master's latch of a register (R506). -/
def latchKey (m idx : Nat) : Nat := m * 2 ^ 18 + idx

/-- Whether a master reaches the register at an index (R504). -/
def State.reachesReg (s : State) (m idx : Nat) : Bool :=
  s.reaches m || (decide (m = 2) && s.md.mode.powered &&
    ((decide (0o012_000 ≤ idx) && decide (idx ≤ 0o012_010)) || (decide (0o000_700 ≤ idx) && decide (idx ≤ 0o000_777)) ||
      (decide (0o004_000 ≤ idx) && decide (idx ≤ 0o007_777) &&
        s.reachesChannel m (s.channel ((idx - 0o004_000) / 64)))))

/-- What a register shows a master (R504, R506): the latched word of a 36-bit register once its low word has been read,
else the live value; 0 to a master that does not reach it. -/
def State.readReg (s : State) (m right idx : Nat) : Word :=
  if s.reachesReg m idx then (Tbl.get none s.latches (latchKey m idx)).getD (s.liveReg m right idx) else 0

/-! ## Latching reads (R506) -/

/-- A read of a low word by a master: it answers the live low word and latches the words listed for that master. -/
def State.readLow (s : State) (m idx : Nat) (high : List Nat) : State :=
  if !s.reachesReg m idx then s.answer 0
  else
    let t := high.foldl (fun t i => Tbl.set none t (latchKey m i) (some (s.liveReg m 0 i))) s.latches
    { (s.answer (s.liveReg m 0 idx)) with latches := t }

/-- TK_NUM0_READ: latches TK_NUM1 and TK_ERA. -/
def execTkNum0Read (m : Nat) (s : State) : Out := .next (s.readLow m 0o000_206 [0o000_207, 0o000_210])
/-- BD_MIG0_READ: latches BD_MIG1. -/
def execBdMig0Read (m : Nat) (s : State) : Out := .next (s.readLow m 0o000_301 [0o000_302])
/-- OC_PRG0_READ: latches OC_PRG1. -/
def execOcPrg0Read (m : Nat) (s : State) : Out := .next (s.readLow m 0o000_403 [0o000_404])
/-- AR_EPOCH0_READ: latches AR_EPOCH1. -/
def execArEpoch0Read (m : Nat) (s : State) : Out := .next (s.readLow m 0o000_602 [0o000_603])
/-- SF_CHK0_READ: latches SF_CHK1. The island reads its own block too (R504). -/
def execSfChk0Read (m : Nat) (s : State) : Out := .next (s.readLow m 0o012_003 [0o012_004])
/-- SF_CHKS0_READ: latches SF_CHKS1. -/
def execSfChks0Read (m : Nat) (s : State) : Out := .next (s.readLow m 0o012_005 [0o012_006])
/-- WM_PT0_READ: latches WM_PT1. -/
def execWmPt0Read (m : Nat) (s : State) : Out := .next (s.readLow m 0o013_400 [0o013_401])
/-- RC_SEQ0_READ: latches RC_SEQ1. -/
def execRcSeq0Read (m : Nat) (s : State) : Out := .next (s.readLow m 0o013_411 [0o013_412])
/-- RC_OVW0_READ: latches RC_OVW1. -/
def execRcOvw0Read (m : Nat) (s : State) : Out := .next (s.readLow m 0o013_413 [0o013_414])
/-- UP_AT0_READ: latches UP_AT1. -/
def execUpAt0Read (m : Nat) (s : State) : Out := .next (s.readLow m 0o014_401 [0o014_402])

/-! ## The tick set-up registers (R42–R45) -/

/-- The divisors of one second in the range of R42 (R43). -/
def periodDivisors : List Nat :=
  ((List.range 7).flatMap fun a => (List.range 7).map fun b => 2 ^ a * 5 ^ b).filter fun d => decide (250 ≤ d)

/-- The largest divisor of 1,000,000 µs not above a period (R43). -/
def lockedPeriod (p : Nat) : Nat := (periodDivisors.filter fun d => decide (d ≤ p)).foldl max 0

/-- The tick period as clamped by R42 and, under LOCK, by R43. -/
def clampPeriod (lock : Bool) (p : Nat) : Nat :=
  let q := clampTo 250 1000000 p
  if lock then lockedPeriod q else q

/-- Write the committed tick set-up values (R45). -/
def State.commitTick (s : State) (t : TickSetup) : State := { s with work := { s.work with setup := t } }

/-- Tick set-up writes are applied only in Stop and with installer rights; others are ignored and recorded (R45). -/
def State.tickWrite (s : State) (w : Writer) (idx : Nat) (v : Word) (body : State → State) : State :=
  if s.md.mode = .stop ∧ 2 ≤ w.right then (body s).changed w.cred idx v.toNat w.m else s.refuseRecorded w idx v

/-- A write to TK_PER0: the low word is staged (R45). -/
def State.writePer0 (s : State) (w : Writer) (v : Word) : State :=
  s.tickWrite w 0o000_200 v fun s => { s with perStaged := some v }

/-- A write to TK_PER1: both words are committed as one 20-bit value, clamped by R42 and R43. With no half staged, the low
word committed before stands (R45). -/
def State.writePer1 (s : State) (w : Writer) (v : Word) : State :=
  s.tickWrite w 0o000_201 v fun s =>
    let t := s.work.setup
    let lo := s.perStaged.getD (lowWord t.period)
    { (s.commitTick { t with period := clampPeriod t.lock (lo.toNat + bitsOf v 1 0 * 2 ^ 18) }) with perStaged := none }

/-- TK_PER0_WRITE (R45): the low word is staged; the committed value still reads. -/
def execTkPer0Write (m : Nat) (session : Option Nat) (v : Word) (s : State) : Out :=
  if !s.reaches m then .next s else .next (s.writePer0 (s.writer m session) v)

/-- TK_PER1_WRITE (R45). -/
def execTkPer1Write (m : Nat) (session : Option Nat) (v : Word) (s : State) : Out :=
  if !s.reaches m then .next s else .next (s.writePer1 (s.writer m session) v)

/-- A write to TK_LATCH, TK_INWIN or TK_CFG: committed at once, clamped (R16, R43, R45). -/
def State.writeTick (s : State) (w : Writer) (idx : Nat) (v : Word) : State :=
  let t := s.work.setup
  if idx = 0o000_202 then s.tickWrite w idx v fun s => s.commitTick { t with latch := clampTo 10 200 (bitsOf v 7 0) }
  else if idx = 0o000_203 then s.tickWrite w idx v fun s => s.commitTick { t with inwin := clampTo 30 400 (bitsOf v 8 0) }
  else if idx = 0o000_204 then
    s.tickWrite w idx v fun s => s.commitTick { t with lock := bitOf v 0, period := clampPeriod (bitOf v 0) t.period }
  else if idx = 0o000_211 then (if bitOf v 8 then { s with ovrValid := false } else s)
  else s

/-! ## Writes of the other registers (R505) -/

/-- A set-up write taken only in Stop and with installer rights, else dropped without a record. -/
def State.writeStopOnly (s : State) (w : Writer) (idx : Nat) (v : Word) : State :=
  if s.md.mode = .stop ∧ 2 ≤ w.right then s.takeSetup w idx v else s.refuse w

/-- MD_CFG: installer rights in any mode, else ignored and recorded (R40). -/
def State.writeModes (s : State) (w : Writer) (idx : Nat) (v : Word) : State :=
  if idx ≠ 0o000_101 then s
  else if 2 ≤ w.right then s.takeSetup w idx (v &&& 3)
  else s.refuseRecorded w idx v

/-- HD_CFG with installer rights, and the debug breakpoints (R197). -/
def State.writeHold (s : State) (w : Writer) (idx : Nat) (v : Word) : State :=
  if idx = 0o000_420 then s.writeWith w 2 idx (v &&& 3)
  else if 0o000_430 ≤ idx ∧ idx ≤ 0o000_437 then s.putSetup idx v
  else if 0o000_440 ≤ idx ∧ idx ≤ 0o000_447 then s.putSetup idx (v &&& 0o000_037)
  else s

/-- The station link registers (R231): the rules of R45, with their clamps. -/
def State.writeLinks (s : State) (w : Writer) (idx : Nat) (v : Word) : State :=
  if idx = 0o000_500 then s.writeInStop w idx (word (max 0o003_000 (bitsOf v 15 0)))
  else if 0o000_510 ≤ idx ∧ idx ≤ 0o000_527 then
    s.writeInStop w idx (word (fieldAt (min 2 (bitsOf v 17 16)) 16 + fieldAt (bitsOf v 15 14) 14 +
      fieldAt (min 16 (bitsOf v 12 8)) 8 + max 1 (bitsOf v 7 0)))
  else if 0o000_530 ≤ idx ∧ idx ≤ 0o000_547 then
    if s.md.mode = .stop ∧ 2 ≤ w.right then
      let k := idx - 0o000_530
      let x := s.link k
      (s.setLink k { x with late := x.late && !bitOf v 17, fcsErr := x.fcsErr && !bitOf v 16, stale := x.stale && !bitOf v 15 }).changed
        w.cred idx v.toNat w.m
    else s.refuseRecorded w idx v
  else s

/-- One word of a station table entry (R231). -/
def State.writeStation (s : State) (w : Writer) (idx : Nat) (v : Word) : State :=
  s.writeInStop w idx (match idx % 4 with
    | 0 => word (fieldAt (bitsOf v 17 17) 17 + fieldAt (min 2 (bitsOf v 16 15)) 15 + min 256 (bitsOf v 8 0))
    | 2 => word (min 256 (bitsOf v 8 0))
    | _ => word (min 0o076_777 (bitsOf v 14 0)))

/-- The arch registers (R263). -/
def State.writeArch (s : State) (w : Writer) (idx : Nat) (v : Word) : State :=
  if idx = 0o000_600 then s.writeInStop w idx (v &&& 0o740_000)
  else if idx = 0o000_601 then
    { s with arch := { s.arch with relmiss := s.arch.relmiss && !bitOf v 11, diverged := s.arch.diverged && !bitOf v 6 } }
  else if 0o000_606 ≤ idx ∧ idx ≤ 0o000_611 then
    if 2 ≤ w.right ∧ (s.md.mode = .stop ∨ ((s.md.mode = .run ∨ s.md.mode = .hold) ∧ s.arch.lstate = 6)) then s.takeSetup w idx v
    else s.refuse w
  else s

/-- A ring base, or LOG2S in RG_CTL, while EN is 0 (R281). EN and RESET have rows of their own. -/
def State.writeRing (s : State) (idx : Nat) (v : Word) : State :=
  let r := (idx - 0o001_000) / 16
  let g := s.ring r
  let low (n : Nat) : Nat := v.toNat + n / 2 ^ 18 * 2 ^ 18
  let high (n : Nat) : Nat := n % 2 ^ 18 + v.toNat * 2 ^ 18
  let put (x : Ring) : State := if g.en then s.ignore else s.setRing r x
  match idx % 16 with
  | 0 => if g.en ∧ clampTo 3 12 (bitsOf v 11 8) = g.log2s then s else put { g with log2s := clampTo 3 12 (bitsOf v 11 8) }
  | 1 => put { g with cb := low g.cb }
  | 2 => put { g with cb := high g.cb }
  | 3 => put { g with qb := low g.qb }
  | 4 => put { g with qb := high g.qb }
  | _ => s

/-- The messages of a master shown as taken are cleared (R289). -/
def Channel.clearTaken (m : Nat) (c : Channel) : Channel :=
  { c with dirX := { c.dirX with taken := c.dirX.taken && c.bind.x != m }
           dirY := { c.dirY with taken := c.dirY.taken && c.bind.y != m } }

/-- MB_TAKEN0 and MB_TAKEN1, for the writing master (R289). -/
def State.writeTaken (s : State) (m first n : Nat) (v : Word) : State :=
  (List.range n).foldl (fun (s : State) i =>
    if bitOf v i then s.setChannel (first + i) ((s.channel (first + i)).clearTaken m) else s) s

/-- HL_CFG, and the taken words (R281, R289). -/
def State.writeSummary (s : State) (w : Writer) (idx : Nat) (v : Word) : State :=
  if idx = 0o001_402 then s.writeTaken w.m 0 18 v
  else if idx = 0o001_403 then s.writeTaken w.m 18 14 v
  else if idx = 0o001_406 then s.writeStopOnly w idx (v &&& 0o000_777)
  else s

/-- A write to a channel register by one of its sides: message words by the sender while GO is 0 (R284); TAKEN by the sender
and CROSSED by either side (R289). SEND, WD and ACK have rows of their own. DESIGN CHOICE: message words 8–15 of a channel with
8-word blocks take writes too; they are not sent. -/
def State.writeMailbox (s : State) (m idx : Nat) (v : Word) : State :=
  let n := (idx - 0o004_000) / 64
  let w := idx % 64
  let c := s.channel n
  let message (y : Bool) (i : Nat) : State :=
    if !(c.bind.usable s.tileCount) || c.sender y != m || (c.dir y).go then s.ignore
    else s.setChannel n (c.setDir y { c.dir y with msg := Tbl.set 0 (c.dir y).msg i v })
  let control (y : Bool) : State :=
    let d := c.dir y
    let sender := (c.bind.usable s.tileCount) && c.sender y == m
    let side := sender || ((c.bind.usable s.tileCount) && c.receiver y == m)
    let d1 := { d with taken := d.taken && !(sender && bitOf v 13), crossed := d.crossed && !(side && bitOf v 12) }
    let s1 := s.setChannel n (c.setDir y d1)
    if (bitOf v 13 && !sender) || (bitOf v 12 && !side) then s1.ignore else s1
  if w = 4 then control false
  else if w = 5 then control true
  else if 16 ≤ w ∧ w < 32 then message false (w - 16)
  else if 32 ≤ w ∧ w < 48 then message true (w - 32)
  else s

/-- RC_CFG with installer rights in any mode (R430). -/
def State.writeMemories (s : State) (w : Writer) (idx : Nat) (v : Word) : State :=
  if idx = 0o013_410 then s.writeWith w 2 idx (word (clampTo 1 600 (bitsOf v 9 0))) else s

/-- LK_BIND (R294): Stop only, installer rights; a TASK below 3 is taken as 3. -/
def State.writeBind (s : State) (w : Writer) (idx : Nat) (v : Word) : State :=
  s.writeStopOnly w idx (word (fieldAt (bitsOf v 17 17) 17 + max 3 (bitsOf v 7 0)))

/-- A write to the register at an index (R505, R508): read-only registers and reserved indices take nothing. -/
def State.writeReg (s : State) (w : Writer) (idx : Nat) (v : Word) : State :=
  if idx < 0o000_100 then s
  else if idx ≤ 0o000_104 then s.writeModes w idx v
  else if idx < 0o000_200 then s
  else if idx ≤ 0o000_212 then s.writeTick w idx v
  else if idx < 0o000_420 then s
  else if idx ≤ 0o000_447 then s.writeHold w idx v
  else if idx < 0o000_500 then s
  else if idx ≤ 0o000_567 then s.writeLinks w idx v
  else if idx < 0o000_600 then s
  else if idx ≤ 0o000_612 then s.writeArch w idx v
  else if idx < 0o001_000 then s
  else if idx ≤ 0o001_217 then s.writeRing idx v
  else if idx < 0o001_300 then s
  else if idx ≤ 0o001_377 then s.writeBind w idx v
  else if idx ≤ 0o001_407 then s.writeSummary w idx v
  else if idx < 0o002_000 then s
  else if idx ≤ 0o003_777 then s.writeStation w idx v
  else if idx ≤ 0o007_777 then s.writeMailbox w.m idx v
  else if idx ≤ 0o010_006 then s.writeTrain w idx v
  else if idx < 0o010_400 then s
  else if idx ≤ 0o010_604 then s.writeCan w idx v
  else if idx < 0o011_000 then s
  else if idx ≤ 0o011_204 then s.writeSerial w idx v
  else if idx < 0o012_400 then s
  else if idx ≤ 0o012_411 then s.writeField_ w idx v
  else if idx < 0o013_000 then s
  else if idx ≤ 0o013_022 then s.writeMeter w idx v
  else if idx < 0o013_400 then s
  else if idx ≤ 0o013_430 then s.writeMemories w idx v
  else if idx < 0o014_000 then s
  else if idx ≤ 0o014_067 then s.writeClock w idx v
  else if idx < 0o014_100 then s
  else if idx ≤ 0o014_137 then s.writeWatchdog w idx v
  else if idx < 0o014_400 then s
  else if idx ≤ 0o014_430 then s.writeUpdate w idx v
  else if idx < 0o015_000 then s
  else if idx ≤ 0o015_006 then s.writePower idx v
  else s

/-! ## The bus (R13, R17, R267, R506) -/

/-- The host byte offset of a register (R13). -/
def hostOffset (idx : Nat) : Nat := 4 * idx

/-- The 32-bit slot a register shows the host: bits 31:18 read as 0 (R13). -/
def dwordOf (w : Word) : BitVec 32 := w.setWidth 32

/-- The value of a 32-bit slot written: bits 31:18 are ignored (R13). -/
def dwordValue (x : BitVec 32) : Word := x.setWidth 18

/-- The index an access reaches, none when BAR0 takes only single aligned DWORDs and the access is not one (R13, R267). A
read does not depend on its byte enables. -/
def registerOf (write : Bool) : RegAddr → Option Nat
  | .index i => some i
  | .host offset dwords allBytes => if offset % 4 = 0 ∧ dwords = 1 ∧ (!write ∨ allBytes) then some (offset / 4) else none

/-- A write to the register at an index (R505). The locks, the ring indices and the two period words have rows of their own,
and a write by index is the same write. -/
def State.writeIndex (s : State) (m : Nat) (session : Option Nat) (idx : Nat) (v : Word) : State :=
  if !s.reachesReg m idx then s
  else if 0o000_700 ≤ idx ∧ idx ≤ 0o000_777 then s.writeLock m (idx - 0o000_700)
  else if idx = 0o000_200 then s.writePer0 (s.writer m session) v
  else if idx = 0o000_201 then s.writePer1 (s.writer m session) v
  else if 0o001_000 ≤ idx ∧ idx ≤ 0o001_217 ∧ idx % 16 = 5 then s.writeCpi m ((idx - 0o001_000) / 16) v
  else if 0o001_000 ≤ idx ∧ idx ≤ 0o001_217 ∧ idx % 16 = 8 then s.writeQci m ((idx - 0o001_000) / 16) v
  else s.writeReg (s.writer m session) idx v

/-- One write as it reaches the set-up space; a host-link write of another form is ignored and counted (R267). -/
def State.busWrite (s : State) (x : BusWrite) : State :=
  match registerOf true x.write.reg with
  | some idx => s.writeIndex x.m x.session idx (dwordValue x.write.slot)
  | none => s.countIgnored x.m

/-- What one plain read answers: nothing to a read that is answered with Completer Abort (R267). -/
def State.busRead (s : State) (x : BusRead) : Option Word :=
  (registerOf false x.reg).map fun idx => s.readReg x.m (s.writer x.m x.session).right idx

/-- REGISTER_WRITE (R17, R505, R506): the writes of one cycle, the lower master identity first, and the plain reads of the same
cycle, which come before them. -/
def execRegisterWrite (m : Nat) (session : Option Nat) (w : SlotWrite) (cycle : BusCycle) (s : State) : Out :=
  let s1 := if cycle.reads.isEmpty then s else { s with lastRead := cycle.reads.filterMap s.busRead }
  .next ((sortBy BusWrite.m (⟨m, session, w⟩ :: cycle.writes)).foldl (fun (s : State) x => s.busWrite x) s1)

/-! ## MB_BIND_SET (R282, R295) -/

/-- The binding a descriptor states. -/
def bindingOf (d : Desc) : Binding :=
  ⟨bitsOf d.a1 17 12, bitsOf d.a1 11 6, bitOf d.a1 5, bitOf d.a1 4, bitsOf d.a2 14 0, bitsOf d.a3 14 0⟩

/-- A binding's blocks meet no allocation, no system area and not each other (R69, R283). -/
def State.bindingFits (s : State) (c : Nat) (b : Binding) : Bool :=
  let bs := bindingBlocks s.tileCount c b
  let mail := s.channels.flatMap fun e => if e.1 = c then [] else bindingBlocks s.tileCount e.1 e.2.settings
  let others := nonEmpty (s.stationBlocks ++ s.fieldBlocks ++ mail ++ tableBlocks s.train.table ++ s.channelBlocks)
  apart bs && bs.all fun b => !WordRange.meets b (systemArea b.area) && others.all fun o => !WordRange.meets b o

/-- MB_BIND_SET (R282, R295, R349): writes the settings copy, in effect at the next Start. Channel 31 is the island's. -/
def execMbBindSet (q : Req) (s : State) : Out :=
  .next (runCommand 0 0o100 2 q s fun s q k cred =>
    let c := min 31 q.desc.a0.toNat
    let b := bindingOf q.desc
    if c = 31 then s.complete k (.refused 0)
    else if !s.bindingFits c b then s.complete k (.refused 8)
    else ((s.setChannel c { s.channel c with settings := b }).changed cred 0o100 c q.desc.a1.toNat).complete k .done)

/-! ## The host link (R165, R267) -/

/-- HOST_LINK_RESET (R165, R267): link down, hot reset or function reset revokes everything held under identity 1; HL_STAT
changes, which vector 63 signals. -/
def execHostLinkReset (s : State) : Out :=
  if !s.md.mode.powered then .next s
  else .next (({ (s.revoke 1) with hostLink := {} } : State).doorbell 1 63)

/-- HOST_LINK_UP (R267): the link trains to x1 or x2, at Gen1 or Gen2. -/
def execHostLinkUp (width : Nat) (gen2 : Bool) (s : State) : Out :=
  if !s.md.mode.powered then .next s
  else .next (({ s with hostLink := ⟨min 2 width, gen2, true⟩ } : State).doorbell 1 63)

end Sys2Proof.Machine
end

