-- ==== Sys2Proof/Machine/Dispatch.lean ====
section
/-!
DEFINITION. The dispatch: one arm per command, each one call of its meaning.
-/

namespace Sys2Proof.Machine

/-- What a command does to the state, the queue aside. -/
def exec (i : Instr) (s : State) : Host.Outcome State Fault Refusal :=
  match i with
  | .feedPresent x => Sys2Proof.Machine.execFeedPresent x s
  | .backupEntry external => Sys2Proof.Machine.execBackupEntry external s
  | .backupSourceExhausted => Sys2Proof.Machine.execBackupSourceExhausted s
  | .bootRetry x => Sys2Proof.Machine.execBootRetry x s
  | .startComplete x => Sys2Proof.Machine.execStartComplete x s
  | .modeRequest q => Sys2Proof.Machine.execModeRequest q s
  | .tickBoundary x => Sys2Proof.Machine.execTickBoundary x s
  | .fieldUpdateUnticked el => Sys2Proof.Machine.execFieldUpdateUnticked el s
  | .pulseEnd p => Sys2Proof.Machine.execPulseEnd p s
  | .latchInstant x => Sys2Proof.Machine.execLatchInstant x s
  | .inputImageClose el => Sys2Proof.Machine.execInputImageClose el s
  | .slotDispatch t slot => Sys2Proof.Machine.execSlotDispatch t slot s
  | .budgetOverrun t => Sys2Proof.Machine.execBudgetOverrun t s
  | .writeBehindCopy lines => Sys2Proof.Machine.execWriteBehindCopy lines s
  | .consistencyPointComplete => Sys2Proof.Machine.execConsistencyPointComplete s
  | .writeBehindLag => Sys2Proof.Machine.execWriteBehindLag s
  | .powerFailTrip backup => Sys2Proof.Machine.execPowerFailTrip backup s
  | .rideThroughReturn duration lowest => Sys2Proof.Machine.execRideThroughReturn duration lowest s
  | .rideThroughEnd => Sys2Proof.Machine.execRideThroughEnd s
  | .sealComplete feed backup flush => Sys2Proof.Machine.execSealComplete feed backup flush s
  | .holdUpFailure feed backup => Sys2Proof.Machine.execHoldUpFailure feed backup s
  | .bankBelowReserve volts => Sys2Proof.Machine.execBankBelowReserve volts s
  | .feedStateChange feed volts over_ => Sys2Proof.Machine.execFeedStateChange feed volts over_ s
  | .domainFault d x => Sys2Proof.Machine.execDomainFault d x s
  | .domainRetry d ok => Sys2Proof.Machine.execDomainRetry d ok s
  | .temperatureThreshold tempC => Sys2Proof.Machine.execTemperatureThreshold tempC s
  | .windowClose t c others => Sys2Proof.Machine.execWindowClose t c others s
  | .bankDrainEnd t => Sys2Proof.Machine.execBankDrainEnd t s
  | .bondTestVerdict die pos mainFails checkerFails => Sys2Proof.Machine.execBondTestVerdict die pos mainFails checkerFails s
  | .foremanRestart => Sys2Proof.Machine.execForemanRestart s
  | .hostLinkReset => Sys2Proof.Machine.execHostLinkReset s
  | .debugPortReset => Sys2Proof.Machine.execDebugPortReset s
  | .debugRegisterWrite t r v => Sys2Proof.Machine.execDebugRegisterWrite t r v s
  | .debugMemoryWrite t code addr v => Sys2Proof.Machine.execDebugMemoryWrite t code addr v s
  | .debugBreakpoint t addr => Sys2Proof.Machine.execDebugBreakpoint t addr s
  | .nop t => Sys2Proof.Machine.execNop t s
  | .end_ t => Sys2Proof.Machine.execEnd t s
  | .ret t => Sys2Proof.Machine.execRet t s
  | .rett w => Sys2Proof.Machine.execRett w s
  | .brk w => Sys2Proof.Machine.execBrk w s
  | .mov t a b => Sys2Proof.Machine.execMov t a b s
  | .rdfl t a => Sys2Proof.Machine.execRdfl t a s
  | .wrfl t b => Sys2Proof.Machine.execWrfl t b s
  | .rdct t a => Sys2Proof.Machine.execRdct t a s
  | .wrct t b => Sys2Proof.Machine.execWrct t b s
  | .swap t a b => Sys2Proof.Machine.execSwap t a b s
  | .movd t a b => Sys2Proof.Machine.execMovd t a b s
  | .not_ t a b => Sys2Proof.Machine.execNot t a b s
  | .neg t a b => Sys2Proof.Machine.execNeg t a b s
  | .movi t a imm => Sys2Proof.Machine.execMovi t a imm s
  | .br t cc off => Sys2Proof.Machine.execBr t cc off s
  | .bra t off => Sys2Proof.Machine.execBra t off s
  | .bsr t off => Sys2Proof.Machine.execBsr t off s
  | .jmp t b => Sys2Proof.Machine.execJmp t b s
  | .jsr t b => Sys2Proof.Machine.execJsr t b s
  | .loop t off => Sys2Proof.Machine.execLoop t off s
  | .rep t => Sys2Proof.Machine.execRep t s
  | .rdfeat t a n => Sys2Proof.Machine.execRdfeat t a n s
  | .add t a b c => Sys2Proof.Machine.execAdd t a b c s
  | .adc t a b c => Sys2Proof.Machine.execAdc t a b c s
  | .sub t a b c => Sys2Proof.Machine.execSub t a b c s
  | .sbc t a b c => Sys2Proof.Machine.execSbc t a b c s
  | .and_ t a b c => Sys2Proof.Machine.execAnd t a b c s
  | .or_ t a b c => Sys2Proof.Machine.execOr t a b c s
  | .xor_ t a b c => Sys2Proof.Machine.execXor t a b c s
  | .andn t a b c => Sys2Proof.Machine.execAndn t a b c s
  | .adds t a b c => Sys2Proof.Machine.execAdds t a b c s
  | .subs t a b c => Sys2Proof.Machine.execSubs t a b c s
  | .addus t a b c => Sys2Proof.Machine.execAddus t a b c s
  | .subus t a b c => Sys2Proof.Machine.execSubus t a b c s
  | .min_ t a b c => Sys2Proof.Machine.execMin t a b c s
  | .max_ t a b c => Sys2Proof.Machine.execMax t a b c s
  | .minu t a b c => Sys2Proof.Machine.execMinu t a b c s
  | .maxu t a b c => Sys2Proof.Machine.execMaxu t a b c s
  | .shl t a b c => Sys2Proof.Machine.execShl t a b c s
  | .shr t a b c => Sys2Proof.Machine.execShr t a b c s
  | .sar t a b c => Sys2Proof.Machine.execSar t a b c s
  | .rol t a b c => Sys2Proof.Machine.execRol t a b c s
  | .ror t a b c => Sys2Proof.Machine.execRor t a b c s
  | .shli t a b n => Sys2Proof.Machine.execShli t a b n s
  | .shri t a b n => Sys2Proof.Machine.execShri t a b n s
  | .sari t a b n => Sys2Proof.Machine.execSari t a b n s
  | .addi t a b imm => Sys2Proof.Machine.execAddi t a b imm s
  | .cmp t a b => Sys2Proof.Machine.execCmp t a b s
  | .tst t a b => Sys2Proof.Machine.execTst t a b s
  | .cmpd t a b => Sys2Proof.Machine.execCmpd t a b s
  | .cmpi t a imm => Sys2Proof.Machine.execCmpi t a imm s
  | .muls t a b c => Sys2Proof.Machine.execMuls t a b c s
  | .mulu t a b c => Sys2Proof.Machine.execMulu t a b c s
  | .divs t a b c => Sys2Proof.Machine.execDivs t a b c s
  | .divu t a b c => Sys2Proof.Machine.execDivu t a b c s
  | .btst t a n => Sys2Proof.Machine.execBtst t a n s
  | .bset t a n => Sys2Proof.Machine.execBset t a n s
  | .bclr t a n => Sys2Proof.Machine.execBclr t a n s
  | .binv t a n => Sys2Proof.Machine.execBinv t a n s
  | .clz t a b => Sys2Proof.Machine.execClz t a b s
  | .ctz t a b => Sys2Proof.Machine.execCtz t a b s
  | .popc t a b => Sys2Proof.Machine.execPopc t a b s
  | .brev t a b => Sys2Proof.Machine.execBrev t a b s
  | .swn t a b => Sys2Proof.Machine.execSwn t a b s
  | .sxo t a b => Sys2Proof.Machine.execSxo t a b s
  | .sxn t a b => Sys2Proof.Machine.execSxn t a b s
  | .addd t a b c => Sys2Proof.Machine.execAddd t a b c s
  | .subd t a b c => Sys2Proof.Machine.execSubd t a b c s
  | .andd t a b c => Sys2Proof.Machine.execAndd t a b c s
  | .ord_ t a b c => Sys2Proof.Machine.execOrd t a b c s
  | .xord t a b c => Sys2Proof.Machine.execXord t a b c s
  | .ld t a b imm => Sys2Proof.Machine.execLd t a b imm s
  | .st t a b imm => Sys2Proof.Machine.execSt t a b imm s
  | .ldd t a b imm => Sys2Proof.Machine.execLdd t a b imm s
  | .std t a b imm => Sys2Proof.Machine.execStd t a b imm s
  | .push t a => Sys2Proof.Machine.execPush t a s
  | .pop t a => Sys2Proof.Machine.execPop t a s
  | .pushd t a => Sys2Proof.Machine.execPushd t a s
  | .popd t a => Sys2Proof.Machine.execPopd t a s
  | .ldc t a b imm => Sys2Proof.Machine.execLdc t a b imm s
  | .ldn t a b => Sys2Proof.Machine.execLdn t a b s
  | .stn t a b => Sys2Proof.Machine.execStn t a b s
  | .ldni t a b => Sys2Proof.Machine.execLdni t a b s
  | .stni t a b => Sys2Proof.Machine.execStni t a b s
  | .fld t a b => Sys2Proof.Machine.execFld t a b s
  | .fst_ t a b => Sys2Proof.Machine.execFst t a b s
  | .fldd t a b => Sys2Proof.Machine.execFldd t a b s
  | .fstd t a b => Sys2Proof.Machine.execFstd t a b s
  | .fldi t a b => Sys2Proof.Machine.execFldi t a b s
  | .fsti t a b => Sys2Proof.Machine.execFsti t a b s
  | .nperm t a b sel => Sys2Proof.Machine.execNperm t a b sel s
  | .addiImm18 t a b imm => Sys2Proof.Machine.execAddiImm18 t a b imm s
  | .subi t a b imm => Sys2Proof.Machine.execSubi t a b imm s
  | .andi t a b imm => Sys2Proof.Machine.execAndi t a b imm s
  | .ori t a b imm => Sys2Proof.Machine.execOri t a b imm s
  | .xori t a b imm => Sys2Proof.Machine.execXori t a b imm s
  | .moviImm18 t a imm => Sys2Proof.Machine.execMoviImm18 t a imm s
  | .cmpiImm18 t a imm => Sys2Proof.Machine.execCmpiImm18 t a imm s
  | .tsti t a imm => Sys2Proof.Machine.execTsti t a imm s
  | .addsi t a b imm => Sys2Proof.Machine.execAddsi t a b imm s
  | .mini t a b imm => Sys2Proof.Machine.execMini t a b imm s
  | .maxi t a b imm => Sys2Proof.Machine.execMaxi t a b imm s
  | .bfx t a b pos len => Sys2Proof.Machine.execBfx t a b pos len s
  | .bfxs t a b pos len => Sys2Proof.Machine.execBfxs t a b pos len s
  | .bfi t a b pos len => Sys2Proof.Machine.execBfi t a b pos len s
  | .bfc t a pos len => Sys2Proof.Machine.execBfc t a pos len s
  | .bfs t a pos len => Sys2Proof.Machine.execBfs t a pos len s
  | .jcc t cc target => Sys2Proof.Machine.execJcc t cc target s
  | .calla t target => Sys2Proof.Machine.execCalla t target s
  | .solve t block => Sys2Proof.Machine.execSolve t block s
  | .send t b addr => Sys2Proof.Machine.execSend t b addr s
  | .post t b addr => Sys2Proof.Machine.execPost t b addr s
  | .lda t a addr => Sys2Proof.Machine.execLda t a addr s
  | .sta t a addr => Sys2Proof.Machine.execSta t a addr s
  | .ldda t a addr => Sys2Proof.Machine.execLdda t a addr s
  | .stda t a addr => Sys2Proof.Machine.execStda t a addr s
  | .reservedOpcodeTrap t w w2 => Sys2Proof.Machine.execReservedOpcodeTrap t w w2 s
  | .activate q => Sys2Proof.Machine.execActivate q s
  | .cancel q => Sys2Proof.Machine.execCancel q s
  | .load q => Sys2Proof.Machine.execLoad q s
  | .forceSet q => Sys2Proof.Machine.execForceSet q s
  | .forceClear q => Sys2Proof.Machine.execForceClear q s
  | .forceClearAll q => Sys2Proof.Machine.execForceClearAll q s
  | .forceList q => Sys2Proof.Machine.execForceList q s
  | .view q => Sys2Proof.Machine.execView q s
  | .step q => Sys2Proof.Machine.execStep q s
  | .runTile q => Sys2Proof.Machine.execRunTile q s
  | .abandon q => Sys2Proof.Machine.execAbandon q s
  | .stepTick q => Sys2Proof.Machine.execStepTick q s
  | .packageStaging p words => Sys2Proof.Machine.execPackageStaging p words s
  | .stagingResume => Sys2Proof.Machine.execStagingResume s
  | .packageRelay p ok => Sys2Proof.Machine.execPackageRelay p ok s
  | .portLinkUp link full100 => Sys2Proof.Machine.execPortLinkUp link full100 s
  | .relayedCopyEmission link => Sys2Proof.Machine.execRelayedCopyEmission link s
  | .portTurn link x => Sys2Proof.Machine.execPortTurn link x s
  | .iFormReceipt link f => Sys2Proof.Machine.execIFormReceipt link f s
  | .acyclicRequest x => Sys2Proof.Machine.execAcyclicRequest x s
  | .acyclicReply link fcsOk f => Sys2Proof.Machine.execAcyclicReply link fcsOk f s
  | .acyclicTimeout link => Sys2Proof.Machine.execAcyclicTimeout link s
  | .stationService q => Sys2Proof.Machine.execStationService q s
  | .substSet q => Sys2Proof.Machine.execSubstSet q s
  | .stationStatus q => Sys2Proof.Machine.execStationStatus q s
  | .lintelPoll link => Sys2Proof.Machine.execLintelPoll link s
  | .lintelReply link modules => Sys2Proof.Machine.execLintelReply link modules s
  | .lintelReplyTimeout link => Sys2Proof.Machine.execLintelReplyTimeout link s
  | .aliveInChange high => Sys2Proof.Machine.execAliveInChange high s
  | .pairing p => Sys2Proof.Machine.execPairing p s
  | .electionTimeout x => Sys2Proof.Machine.execElectionTimeout x s
  | .synchronisationPass items dirtyLeft => Sys2Proof.Machine.execSynchronisationPass items dirtyLeft s
  | .synchronisationComplete ms meterSetup => Sys2Proof.Machine.execSynchronisationComplete ms meterSetup s
  | .mirrorPageCopy page ws => Sys2Proof.Machine.execMirrorPageCopy page ws s
  | .heartbeatSend phase => Sys2Proof.Machine.execHeartbeatSend phase s
  | .heartbeatReceipt linkB h => Sys2Proof.Machine.execHeartbeatReceipt linkB h s
  | .heartbeatSilence => Sys2Proof.Machine.execHeartbeatSilence s
  | .leaseExpiry => Sys2Proof.Machine.execLeaseExpiry s
  | .partnerLost => Sys2Proof.Machine.execPartnerLost s
  | .relayReceipt r => Sys2Proof.Machine.execRelayReceipt r s
  | .ledgerEntryReceipt e => Sys2Proof.Machine.execLedgerEntryReceipt e s
  | .ledgerComplete c lag => Sys2Proof.Machine.execLedgerComplete c lag s
  | .ledgerAckReceipt good tick lag => Sys2Proof.Machine.execLedgerAckReceipt good tick lag s
  | .ledgerRequest => Sys2Proof.Machine.execLedgerRequest s
  | .dismissalReceipt tick => Sys2Proof.Machine.execDismissalReceipt tick s
  | .releaseNoticeReceipt b => Sys2Proof.Machine.execReleaseNoticeReceipt b s
  | .takeoverBoundary tx x => Sys2Proof.Machine.execTakeoverBoundary tx x s
  | .healthReport f => Sys2Proof.Machine.execHealthReport f s
  | .healthReportReceipt words => Sys2Proof.Machine.execHealthReportReceipt words s
  | .healthGet q => Sys2Proof.Machine.execHealthGet q s
  | .ringEnable m r => Sys2Proof.Machine.execRingEnable m r s
  | .ringDisable m r tags => Sys2Proof.Machine.execRingDisable m r tags s
  | .ringReset m r tags => Sys2Proof.Machine.execRingReset m r tags s
  | .ringResetEnd r => Sys2Proof.Machine.execRingResetEnd r s
  | .commandDoorbell m r v => Sys2Proof.Machine.execCommandDoorbell m r v s
  | .completionDoorbell m r v => Sys2Proof.Machine.execCompletionDoorbell m r v s
  | .receiveDoorbell m k v => Sys2Proof.Machine.execReceiveDoorbell m k v s
  | .descriptorFetch r d => Sys2Proof.Machine.execDescriptorFetch r d s
  | .rclmRead m r => Sys2Proof.Machine.execRclmRead m r s
  | .mailboxSend m c y => Sys2Proof.Machine.execMailboxSend m c y s
  | .mailboxAck m c y => Sys2Proof.Machine.execMailboxAck m c y s
  | .mailboxWithdraw m c x => Sys2Proof.Machine.execMailboxWithdraw m c x s
  | .withdrawResult c y => Sys2Proof.Machine.execWithdrawResult c y s
  | .withdrawResultRead m c y => Sys2Proof.Machine.execWithdrawResultRead m c y s
  | .mailboxRclmRead m c y => Sys2Proof.Machine.execMailboxRclmRead m c y s
  | .mbBindSet q => Sys2Proof.Machine.execMbBindSet q s
  | .lockRead k readers => Sys2Proof.Machine.execLockRead k readers s
  | .lockWrite m k => Sys2Proof.Machine.execLockWrite m k s
  | .tkPer0Write m session v => Sys2Proof.Machine.execTkPer0Write m session v s
  | .tkPer1Write m session v => Sys2Proof.Machine.execTkPer1Write m session v s
  | .tkNum0Read m => Sys2Proof.Machine.execTkNum0Read m s
  | .bdMig0Read m => Sys2Proof.Machine.execBdMig0Read m s
  | .ocPrg0Read m => Sys2Proof.Machine.execOcPrg0Read m s
  | .arEpoch0Read m => Sys2Proof.Machine.execArEpoch0Read m s
  | .sfChk0Read m => Sys2Proof.Machine.execSfChk0Read m s
  | .sfChks0Read m => Sys2Proof.Machine.execSfChks0Read m s
  | .wmPt0Read m => Sys2Proof.Machine.execWmPt0Read m s
  | .rcSeq0Read m => Sys2Proof.Machine.execRcSeq0Read m s
  | .rcOvw0Read m => Sys2Proof.Machine.execRcOvw0Read m s
  | .upAt0Read m => Sys2Proof.Machine.execUpAt0Read m s
  | .registerWrite m session w cycle => Sys2Proof.Machine.execRegisterWrite m session w cycle s
  | .topologyChange port up => Sys2Proof.Machine.execTopologyChange port up s
  | .topologyConfirmation t => Sys2Proof.Machine.execTopologyConfirmation t s
  | .telegramReceipt sub data sdtOk => Sys2Proof.Machine.execTelegramReceipt sub data sdtOk s
  | .subscriptionTimeout sub => Sys2Proof.Machine.execSubscriptionTimeout sub s
  | .telegramPublication n => Sys2Proof.Machine.execTelegramPublication n s
  | .mvbMasterFrame port => Sys2Proof.Machine.execMvbMasterFrame port s
  | .messageDataReceipt octets => Sys2Proof.Machine.execMessageDataReceipt octets s
  | .tnMdSend q => Sys2Proof.Machine.execTnMdSend q s
  | .mdReplyTimeout tag => Sys2Proof.Machine.execMdReplyTimeout tag s
  | .tnTopoGet q => Sys2Proof.Machine.execTnTopoGet q s
  | .tnTableSet q => Sys2Proof.Machine.execTnTableSet q s
  | .ptpSync off => Sys2Proof.Machine.execPtpSync off s
  | .timeSourceLoss => Sys2Proof.Machine.execTimeSourceLoss s
  | .ppsIn off => Sys2Proof.Machine.execPpsIn off s
  | .ppsOut high => Sys2Proof.Machine.execPpsOut high s
  | .canTx q => Sys2Proof.Machine.execCanTx q s
  | .canAbort q => Sys2Proof.Machine.execCanAbort q s
  | .canRecover q => Sys2Proof.Machine.execCanRecover q s
  | .canFrameSent c ok off => Sys2Proof.Machine.execCanFrameSent c ok off s
  | .canFrameReceived c f off => Sys2Proof.Machine.execCanFrameReceived c f off s
  | .canBusError c tx step off => Sys2Proof.Machine.execCanBusError c tx step off s
  | .busOff c off => Sys2Proof.Machine.execBusOff c off s
  | .busOffRecovered c off => Sys2Proof.Machine.execBusOffRecovered c off s
  | .serTx q => Sys2Proof.Machine.execSerTx q s
  | .serialTxDone ch sent off => Sys2Proof.Machine.execSerialTxDone ch sent off s
  | .serAbort q => Sys2Proof.Machine.execSerAbort q s
  | .serialFrameReceived ch f off => Sys2Proof.Machine.execSerialFrameReceived ch f off s
  | .channelDisable m session serial c => Sys2Proof.Machine.execChannelDisable m session serial c s
  | .islandCycle x => Sys2Proof.Machine.execIslandCycle x s
  | .safetyInputFilter ch high => Sys2Proof.Machine.execSafetyInputFilter ch high s
  | .darkTest o ok => Sys2Proof.Machine.execDarkTest o ok s
  | .enablesMessage => Sys2Proof.Machine.execEnablesMessage s
  | .enableTimeout => Sys2Proof.Machine.execEnableTimeout s
  | .islandRestart => Sys2Proof.Machine.execIslandRestart s
  | .safeParamSet q => Sys2Proof.Machine.execSafeParamSet q s
  | .safeConfirm q => Sys2Proof.Machine.execSafeConfirm q s
  | .safeAck q => Sys2Proof.Machine.execSafeAck q s
  | .safeParamGet q => Sys2Proof.Machine.execSafeParamGet q s
  | .inputDebounce ch current => Sys2Proof.Machine.execInputDebounce ch current s
  | .fieldOutputFault ch code present => Sys2Proof.Machine.execFieldOutputFault ch code present s
  | .logicSilenceTimeout => Sys2Proof.Machine.execLogicSilenceTimeout s
  | .fieldStatus q measured => Sys2Proof.Machine.execFieldStatus q measured s
  | .meteringSample x => Sys2Proof.Machine.execMeteringSample x s
  | .modulatorLinkLoss link => Sys2Proof.Machine.execModulatorLinkLoss link s
  | .modulatorLinkRegain link => Sys2Proof.Machine.execModulatorLinkRegain link s
  | .mtRead q => Sys2Proof.Machine.execMtRead q s
  | .mtLogRead q => Sys2Proof.Machine.execMtLogRead q s
  | .mtSet q => Sys2Proof.Machine.execMtSet q s
  | .recordWrite => Sys2Proof.Machine.execRecordWrite s
  | .squallClose seq => Sys2Proof.Machine.execSquallClose seq s
  | .rcRead q => Sys2Proof.Machine.execRcRead q s
  | .rcLog q => Sys2Proof.Machine.execRcLog q s
  | .rcExport q => Sys2Proof.Machine.execRcExport q s
  | .psRead q => Sys2Proof.Machine.execPsRead q s
  | .psWrite q => Sys2Proof.Machine.execPsWrite q s
  | .pageWriteComplete => Sys2Proof.Machine.execPageWriteComplete s
  | .pbRead q => Sys2Proof.Machine.execPbRead q s
  | .pbWrite q => Sys2Proof.Machine.execPbWrite q s
  | .scDefine q => Sys2Proof.Machine.execScDefine q s
  | .scInc q => Sys2Proof.Machine.execScInc q s
  | .scRead q => Sys2Proof.Machine.execScRead q s
  | .scrubRead weak uncorrectable => Sys2Proof.Machine.execScrubRead weak uncorrectable s
  | .scrubPassStart => Sys2Proof.Machine.execScrubPassStart s
  | .applicationSlotAppend fills => Sys2Proof.Machine.execApplicationSlotAppend fills s
  | .frostRead m el => Sys2Proof.Machine.execFrostRead m el s
  | .thawRead m => Sys2Proof.Machine.execThawRead m s
  | .frostTimeout m => Sys2Proof.Machine.execFrostTimeout m s
  | .haltSet m session => Sys2Proof.Machine.execHaltSet m session s
  | .clockStageWrite m idx v => Sys2Proof.Machine.execClockStageWrite m idx v s
  | .clockCommit m el => Sys2Proof.Machine.execClockCommit m el s
  | .oscillatorStop => Sys2Proof.Machine.execOscillatorStop s
  | .clockCorrection err => Sys2Proof.Machine.execClockCorrection err s
  | .calibrationUpdate rate => Sys2Proof.Machine.execCalibrationUpdate rate s
  | .alarmArm m k session => Sys2Proof.Machine.execAlarmArm m k session s
  | .alarmFire k => Sys2Proof.Machine.execAlarmFire k s
  | .watchdogService m v el => Sys2Proof.Machine.execWatchdogService m v el s
  | .watchdogLate => Sys2Proof.Machine.execWatchdogLate s
  | .watchdogClockFault => Sys2Proof.Machine.execWatchdogClockFault s
  | .monitorClockLoss => Sys2Proof.Machine.execMonitorClockLoss s
  | .updBegin q m => Sys2Proof.Machine.execUpdBegin q m s
  | .updBlock q digestOk => Sys2Proof.Machine.execUpdBlock q digestOk s
  | .updSchedule q => Sys2Proof.Machine.execUpdSchedule q s
  | .updCancel q => Sys2Proof.Machine.execUpdCancel q s
  | .activationWindowEnd => Sys2Proof.Machine.execActivationWindowEnd s
  | .credBind r q c => Sys2Proof.Machine.execCredBind r q c s
  | .credProve r q ok => Sys2Proof.Machine.execCredProve r q ok s
  | .credUnbind r q => Sys2Proof.Machine.execCredUnbind r q s
  | .credRevoke q => Sys2Proof.Machine.execCredRevoke q s
  | .credentialExpiry r => Sys2Proof.Machine.execCredentialExpiry r s
  | .anchorSet q fp => Sys2Proof.Machine.execAnchorSet q fp s
  | .idCertGet q => Sys2Proof.Machine.execIdCertGet q s
  | .dbgOpen q => Sys2Proof.Machine.execDbgOpen q s
  | .setRetainedGet q => Sys2Proof.Machine.execSetRetainedGet q s
  | .setRetainedClear q => Sys2Proof.Machine.execSetRetainedClear q s
  | .serviceSessionOpen c => Sys2Proof.Machine.execServiceSessionOpen c s
  | .serviceSessionClose id => Sys2Proof.Machine.execServiceSessionClose id s
  | .sessionIdleTimeout id => Sys2Proof.Machine.execSessionIdleTimeout id s
  | .bankReserveReached volts => Sys2Proof.Machine.execBankReserveReached volts s
  | .hostLinkUp width gen2 => Sys2Proof.Machine.execHostLinkUp width gen2 s
  | .archLinkDown linkB => Sys2Proof.Machine.execArchLinkDown linkB s
  | .releaseAckReceipt => Sys2Proof.Machine.execReleaseAckReceipt s
  | .armedTickReceipt tick => Sys2Proof.Machine.execArmedTickReceipt tick s
  | .forwardedWriteReceipt w => Sys2Proof.Machine.execForwardedWriteReceipt w s
  | .forwardedWriteConfirmation => Sys2Proof.Machine.execForwardedWriteConfirmation s
  | .backupInputChange inRange => Sys2Proof.Machine.execBackupInputChange inRange s
  | .clockRangeEnd => Sys2Proof.Machine.execClockRangeEnd s
  | .mrpRingStateChange closed => Sys2Proof.Machine.execMrpRingStateChange closed s
  | .mvbLineSwitchover lineB => Sys2Proof.Machine.execMvbLineSwitchover lineB s
  | .messageDataReply tag octets => Sys2Proof.Machine.execMessageDataReply tag octets s

end Sys2Proof.Machine
end

