-- ==== Sys2Proof/WellFormed.lean ====
section
/-!
DEFINITION. Which commands are well-formed: every number a command names lies in the range the spec gives it. The meanings
do not assume it: a command that names nothing the part has does nothing.
-/

namespace Sys2Proof

/-- Tiles 0–27 (R5). -/
def tileOk (t : Nat) : Bool := decide (t ≤ 27)
/-- Slot entries 0–62 of a run table (R54). -/
def slotOk (n : Nat) : Bool := decide (n ≤ 62)
/-- Master identities 0–62 (R270). -/
def masterOk (m : Nat) : Bool := decide (m ≤ 62)
/-- The readers of a lock in one cycle: at least one master, none twice (R292). -/
def mastersOk (l : List Nat) : Bool := !l.isEmpty && l.all masterOk && decide l.Nodup
/-- Rings 0–8 (R273). -/
def ringOk (r : Nat) : Bool := decide (r ≤ 8)
/-- Mailbox channels 0–31 (R282). -/
def channelOk (c : Nat) : Bool := decide (c ≤ 31)
/-- Lock registers 0–63 (R290). -/
def lockOk (k : Nat) : Bool := decide (k ≤ 63)
/-- Indices of the set-up space (R503). -/
def indexOk (i : Nat) : Bool := decide (i < 2 ^ 18)
/-- A register by index, or by an offset into BAR0 (R13, R503). -/
def regAddrOk : RegAddr → Bool
  | .index i => indexOk i
  | .host offset _ _ => decide (offset < 2 ^ 20)
/-- Station links 0–15 (R200). -/
def linkOk (k : Nat) : Bool := decide (k ≤ 15)
/-- Tile dies 1–7 (R5). -/
def dieOk (d : Nat) : Bool := decide (1 ≤ d) && decide (d ≤ 7)
/-- Bond positions 0–3 (R140). -/
def positionOk (p : Nat) : Bool := decide (p ≤ 3)
/-- Pages of the page store (R414). -/
def pageOk (p : Nat) : Bool := decide (p < 8192)
/-- Power domains PD0–PD9 (R490). -/
def domainOk (d : Nat) : Bool := decide (d ≤ 9)
/-- Feeds A and B (R483). -/
def feedOk (f : Nat) : Bool := decide (f ≤ 1)
/-- Pulse outputs 0 and 1 (R393). -/
def pulseOk (p : Nat) : Bool := decide (p ≤ 1)
/-- Alarms 0 and 1 (R445). -/
def alarmOk (k : Nat) : Bool := decide (k ≤ 1)
/-- CAN and serial channels 0–7 (R318, R329). -/
def busOk (c : Nat) : Bool := decide (c ≤ 7)
/-- Entries of the telegram table (R300). -/
def telegramOk (e : Nat) : Bool := decide (e < 512)
/-- MVB ports (R309). -/
def mvbPortOk (p : Nat) : Bool := decide (p < 4096)
/-- Octets. -/
def octetsOk (l : List Nat) : Bool := l.all fun x => decide (x < 256)
/-- Channels SI0A–SI7B of the safety inputs (R339). -/
def safetyInputOk (i : Nat) : Bool := decide (i ≤ 15)
/-- Safety outputs 0–3 (R342). -/
def safetyOutputOk (k : Nat) : Bool := decide (k ≤ 3)
/-- Field inputs DI0–DI31 (R364). -/
def fieldInputOk (i : Nat) : Bool := decide (i ≤ 31)
/-- Field outputs DO0–DO15 (R364). -/
def fieldOutputOk (k : Nat) : Bool := decide (k ≤ 15)
/-- Fault codes of a field output, 1–5 (R370). -/
def outputFaultOk (c : Nat) : Bool := decide (1 ≤ c) && decide (c ≤ 5)
/-- Modulator links A and B (R382). -/
def modulatorOk (k : Nat) : Bool := decide (k ≤ 1)
/-- Service sessions: at most four (R468). -/
def sessionOk (i : Nat) : Bool := decide (i ≤ 3)
/-- A session named, or none. -/
def sessionsOk (o : Option Nat) : Bool := o.all sessionOk
/-- Tick numbers of 36 bits (R44). -/
def tickOk (n : Nat) : Bool := decide (n < 2 ^ 36)
/-- A tick number named, or none. -/
def ticksOk (o : Option Nat) : Bool := o.all tickOk
/-- Lanes of the host link (R281). -/
def widthOk (w : Nat) : Bool := decide (1 ≤ w) && decide (w ≤ 2)

/-- Where a descriptor comes from: a slot of a ring of up to 4,096 (R277), a tile's task (R280), or a session (R469). -/
def originOk : Origin → Bool
  | .ring slot => decide (slot < 4096)
  | .tile t task => tileOk t && decide (task < 256)
  | .session id => sessionOk id

/-- A descriptor as its engine executes it. -/
def requestOk (q : Req) : Bool := originOk q.origin

/-- What a start finds (R30): the bonds, stations and verdicts it names exist. -/
def startOk (i : StartInputs) : Bool :=
  (i.failed.all fun f => dieOk f.1 && positionOk f.2.1 && decide (f.2.2 ≤ 3)) && (i.mismatches.all fun m => tileOk m.1) &&
    (i.ports.all linkOk) && i.survey.all fun a => linkOk a.link && decide (a.pos ≤ 15)
/-- A start that follows at once, or none. -/
def startsOk (o : Option StartInputs) : Bool := o.all startOk

/-- An I-form segment (R205, R208): positions 0–15, at most 256 words a block. -/
def formOk (f : IForm) : Bool :=
  decide (f.etype < 2 ^ 16) && f.blocks.all fun b => decide (b.pos ≤ 15) && decide (b.words.length ≤ 256)
/-- A copy that reaches a port (R206, R207). -/
def oFormOk (f : OForm) : Bool :=
  decide (f.etype < 2 ^ 16) && linkOk f.header.link && tickOk f.header.tick &&
    f.blocks.all fun b => decide (b.pos ≤ 15) && decide (b.iwords ≤ 256) && decide (b.words.length ≤ 256)
/-- An acyclic request handed over (R228). -/
def callOk (o : Option AcyclicCall) : Bool :=
  o.all fun c => decide (c.pos ≤ 15) && decide (c.service ≤ 63) && decide (c.tag < 4096) && decide (c.param ≤ 511) &&
    decide (c.words.length ≤ 64)
/-- A relayed copy (R210). -/
def relayOk (r : Relay) : Bool :=
  linkOk r.link && tickOk r.tick && r.blocks.all fun b => decide (b.pos ≤ 15) && decide (b.words.length ≤ 256)
/-- A heartbeat (R242): a mode code and a lease state. -/
def heartbeatOk (h : Heartbeat) : Bool := decide (h.mode ≤ 11) && decide (h.lstate ≤ 7)
/-- A CAN frame (R318): a DLC of four bits, an identifier of 11 or 29 bits, octets. -/
def canFrameOk (f : CanFrame) : Bool :=
  decide (f.dlc ≤ 15) && decide (f.id < (if f.ide then 2 ^ 29 else 2 ^ 11)) && octetsOk f.octets
/-- A sample period: 256 frames on each link (R380, R383). -/
def sampleOk (x : MeterSample) : Bool := decide (x.framesA.length = 256) && decide (x.framesB.length = 256) && decide (x.ns < 10 ^ 9)

/-- Every operand of a command lies in its range. -/
def Instr.wellFormed : Instr → Bool
  | .feedPresent i | .bootRetry i =>
    startOk i
  | .backupEntry _ | .backupSourceExhausted | .startComplete _ | .tickBoundary _ | .fieldUpdateUnticked _
  | .latchInstant _ | .inputImageClose _ | .writeBehindCopy _ | .consistencyPointComplete | .writeBehindLag
  | .powerFailTrip _ | .rideThroughReturn _ _ | .rideThroughEnd | .holdUpFailure _ _ | .bankBelowReserve _
  | .temperatureThreshold _ | .foremanRestart | .hostLinkReset | .debugPortReset | .packageStaging _ _
  | .stagingResume | .packageRelay _ _ | .aliveInChange _ | .pairing _ | .electionTimeout _
  | .synchronisationPass _ _ | .synchronisationComplete _ _ | .heartbeatSend _ | .heartbeatSilence | .leaseExpiry
  | .partnerLost | .ledgerEntryReceipt _ | .ledgerComplete _ _ | .ledgerRequest | .takeoverBoundary _ _
  | .healthReport _ | .healthReportReceipt _ | .topologyChange _ _ | .topologyConfirmation _
  | .messageDataReceipt _ | .mdReplyTimeout _ | .ptpSync _ | .timeSourceLoss | .ppsIn _ | .ppsOut _
  | .islandCycle _ | .enablesMessage | .enableTimeout | .islandRestart | .logicSilenceTimeout | .recordWrite
  | .squallClose _ | .pageWriteComplete | .scrubRead _ _ | .scrubPassStart | .applicationSlotAppend _
  | .oscillatorStop | .clockCorrection _ | .calibrationUpdate _ | .watchdogLate | .watchdogClockFault
  | .monitorClockLoss | .activationWindowEnd | .serviceSessionOpen _ | .bankReserveReached _ | .archLinkDown _
  | .releaseAckReceipt | .forwardedWriteReceipt _ | .forwardedWriteConfirmation | .backupInputChange _
  | .clockRangeEnd | .mrpRingStateChange _ | .mvbLineSwitchover _ | .messageDataReply _ _ =>
    true
  | .modeRequest q | .activate q | .cancel q | .load q | .forceSet q | .forceClear q | .forceClearAll q
  | .forceList q | .view q | .step q | .runTile q | .abandon q | .stepTick q | .stationService q | .substSet q
  | .stationStatus q | .healthGet q | .mbBindSet q | .tnMdSend q | .tnTopoGet q | .tnTableSet q | .canTx q
  | .canAbort q | .canRecover q | .serTx q | .serAbort q | .safeParamSet q | .safeConfirm q | .safeAck q
  | .safeParamGet q | .fieldStatus q _ | .mtRead q | .mtLogRead q | .mtSet q | .rcRead q | .rcLog q | .rcExport q
  | .psRead q | .psWrite q | .pbRead q | .pbWrite q | .scDefine q | .scInc q | .scRead q | .updBegin q _
  | .updBlock q _ | .updSchedule q | .updCancel q | .credRevoke q | .anchorSet q _ | .idCertGet q | .dbgOpen q
  | .setRetainedGet q | .setRetainedClear q =>
    requestOk q
  | .pulseEnd p =>
    pulseOk p
  | .slotDispatch t slot =>
    tileOk t && slotOk slot
  | .windowClose t _ others =>
    tileOk t && others.all (fun e => tileOk e.1) && decide (t :: others.map Prod.fst).Nodup
  | .rett w | .brk w =>
    tileOk w.tile
  | .budgetOverrun t | .bankDrainEnd t | .debugRegisterWrite t _ _ | .debugMemoryWrite t _ _ _
  | .debugBreakpoint t _ | .nop t | .end_ t | .ret t | .mov t _ _ | .rdfl t _ | .wrfl t _
  | .rdct t _ | .wrct t _ | .swap t _ _ | .movd t _ _ | .not_ t _ _ | .neg t _ _ | .movi t _ _ | .br t _ _
  | .bra t _ | .bsr t _ | .jmp t _ | .jsr t _ | .loop t _ | .rep t | .rdfeat t _ _ | .add t _ _ _ | .adc t _ _ _
  | .sub t _ _ _ | .sbc t _ _ _ | .and_ t _ _ _ | .or_ t _ _ _ | .xor_ t _ _ _ | .andn t _ _ _ | .adds t _ _ _
  | .subs t _ _ _ | .addus t _ _ _ | .subus t _ _ _ | .min_ t _ _ _ | .max_ t _ _ _ | .minu t _ _ _ | .maxu t _ _ _
  | .shl t _ _ _ | .shr t _ _ _ | .sar t _ _ _ | .rol t _ _ _ | .ror t _ _ _ | .shli t _ _ _ | .shri t _ _ _
  | .sari t _ _ _ | .addi t _ _ _ | .cmp t _ _ | .tst t _ _ | .cmpd t _ _ | .cmpi t _ _ | .muls t _ _ _
  | .mulu t _ _ _ | .divs t _ _ _ | .divu t _ _ _ | .btst t _ _ | .bset t _ _ | .bclr t _ _ | .binv t _ _
  | .clz t _ _ | .ctz t _ _ | .popc t _ _ | .brev t _ _ | .swn t _ _ | .sxo t _ _ | .sxn t _ _ | .addd t _ _ _
  | .subd t _ _ _ | .andd t _ _ _ | .ord_ t _ _ _ | .xord t _ _ _ | .ld t _ _ _ | .st t _ _ _ | .ldd t _ _ _
  | .std t _ _ _ | .push t _ | .pop t _ | .pushd t _ | .popd t _ | .ldc t _ _ _ | .ldn t _ _ | .stn t _ _
  | .ldni t _ _ | .stni t _ _ | .fld t _ _ | .fst_ t _ _ | .fldd t _ _ | .fstd t _ _ | .fldi t _ _ | .fsti t _ _
  | .nperm t _ _ _ | .addiImm18 t _ _ _ | .subi t _ _ _ | .andi t _ _ _ | .ori t _ _ _ | .xori t _ _ _
  | .moviImm18 t _ _ | .cmpiImm18 t _ _ | .tsti t _ _ | .addsi t _ _ _ | .mini t _ _ _ | .maxi t _ _ _
  | .bfx t _ _ _ _ | .bfxs t _ _ _ _ | .bfi t _ _ _ _ | .bfc t _ _ _ | .bfs t _ _ _ | .jcc t _ _ | .calla t _
  | .solve t _ | .send t _ _ | .post t _ _ | .lda t _ _ | .sta t _ _ | .ldda t _ _ | .stda t _ _
  | .reservedOpcodeTrap t _ _ =>
    tileOk t
  | .sealComplete feed _ _ =>
    startsOk feed
  | .feedStateChange feed _ _ =>
    feedOk feed
  | .domainFault d _ | .domainRetry d _ =>
    domainOk d
  | .bondTestVerdict die pos _ _ =>
    dieOk die && positionOk pos
  | .portLinkUp link _ | .relayedCopyEmission link | .acyclicTimeout link | .lintelPoll link | .lintelReply link _
  | .lintelReplyTimeout link =>
    linkOk link
  | .iFormReceipt link f =>
    linkOk link && formOk f
  | .portTurn link x =>
    linkOk link && oFormOk x.copy
  | .acyclicRequest x =>
    linkOk x.link && callOk x.relayed
  | .acyclicReply link _ f =>
    linkOk link && decide (f.etype < 2 ^ 16)
  | .mirrorPageCopy page _ =>
    pageOk page
  | .heartbeatReceipt _ h =>
    heartbeatOk h
  | .relayReceipt r =>
    relayOk r
  | .ledgerAckReceipt _ tick _ | .dismissalReceipt tick =>
    tickOk tick
  | .releaseNoticeReceipt b =>
    tickOk b
  | .ringEnable m r | .ringDisable m r _ | .ringReset m r _ | .commandDoorbell m r _ | .completionDoorbell m r _
  | .rclmRead m r =>
    masterOk m && ringOk r
  | .ringResetEnd r | .descriptorFetch r _ | .credentialExpiry r =>
    ringOk r
  | .receiveDoorbell m _ _ | .tkNum0Read m | .bdMig0Read m | .ocPrg0Read m | .arEpoch0Read m | .sfChk0Read m
  | .sfChks0Read m | .wmPt0Read m | .rcSeq0Read m | .rcOvw0Read m | .upAt0Read m | .frostRead m _ | .thawRead m
  | .frostTimeout m | .clockCommit m _ | .watchdogService m _ _ =>
    masterOk m
  | .mailboxSend m c _ | .mailboxAck m c _ | .mailboxWithdraw m c _ | .withdrawResultRead m c _
  | .mailboxRclmRead m c _ =>
    masterOk m && channelOk c
  | .withdrawResult c _ =>
    channelOk c
  | .lockRead k readers =>
    lockOk k && mastersOk readers
  | .lockWrite m k =>
    masterOk m && lockOk k
  | .tkPer0Write m session _ | .tkPer1Write m session _ | .haltSet m session =>
    masterOk m && sessionsOk session
  | .registerWrite m session w cycle =>
    let writes := ⟨m, session, w⟩ :: cycle.writes
    cycle.reads.all (fun x => masterOk x.m && sessionsOk x.session && regAddrOk x.reg) &&
      writes.all (fun x => masterOk x.m && sessionsOk x.session && regAddrOk x.write.reg) && decide (writes.map BusWrite.m).Nodup
  | .telegramReceipt e data _ =>
    telegramOk e && octetsOk data
  | .subscriptionTimeout e | .telegramPublication e =>
    telegramOk e
  | .mvbMasterFrame port =>
    mvbPortOk port
  | .canFrameSent c _ _ | .canBusError c _ _ _ | .busOff c _ | .busOffRecovered c _ | .serialTxDone c _ _
  | .serialFrameReceived c _ _ =>
    busOk c
  | .canFrameReceived c f _ =>
    busOk c && canFrameOk f
  | .channelDisable m session _ c =>
    masterOk m && sessionsOk session && busOk c
  | .safetyInputFilter ch _ =>
    safetyInputOk ch
  | .darkTest o _ =>
    safetyOutputOk o
  | .inputDebounce ch _ =>
    fieldInputOk ch
  | .fieldOutputFault ch code _ =>
    fieldOutputOk ch && outputFaultOk code
  | .meteringSample x =>
    sampleOk x
  | .modulatorLinkLoss link | .modulatorLinkRegain link =>
    modulatorOk link
  | .clockStageWrite m idx _ =>
    masterOk m && indexOk idx
  | .alarmArm m k session =>
    masterOk m && alarmOk k && sessionsOk session
  | .alarmFire k =>
    alarmOk k
  | .credBind r q _ | .credProve r q _ | .credUnbind r q =>
    ringOk r && requestOk q
  | .serviceSessionClose id | .sessionIdleTimeout id =>
    sessionOk id
  | .hostLinkUp width _ =>
    widthOk width
  | .armedTickReceipt tick =>
    ticksOk tick

end Sys2Proof
end

