-- ==== Sys2Proof/Safety.lean ====
section
/-!
DEFINITION. What a safe run is, in the terms the claims use: steps that neither fault nor are refused, in a part whose
variant and option fuses are ones the spec gives.
-/

namespace Sys2Proof.Machine

/-- A step answered a next state. -/
def completes (o : Host.Outcome State Fault Refusal) : Prop := ∃ t, o = .next t

/-- The part is one the spec gives (R1): a KS-2, KS-4 or KS-8. -/
def State.LegalPart (s : State) : Prop := s.variant ≤ 2

end Sys2Proof.Machine

namespace Sys2Proof.Claims

open Sys2Proof Sys2Proof.Machine

/-! ## Words of the statements: tiles -/

/-- The two cores of every tile's bond hold the same state, as they do until a fault (R141). -/
def CoresAgree (s : State) : Prop := ∀ e ∈ s.tiles, e.2.checker = e.2.cpu

/-- Tile `t` runs: the part has it, an activation is open on it that is not stopped, budget is left, no close is due, no word of
memory stands with an error (R135, R143), and the cores of its bond agree (R141). -/
def Runs (s : State) (t : Nat) : Prop :=
  t < s.tileCount ∧ (s.tile t).closeDue = false ∧ (s.tile t).running = true ∧ s.upsets = [] ∧
    (s.tile t).checker = (s.tile t).cpu

/-- Tile `t` is about to retire an instruction, and no REP is pending. -/
def Ready (s : State) (t : Nat) : Prop := Runs s t ∧ (s.tile t).cpu.rep = .none

/-- The state after a retire step of tile `t` whose result `r` names the PC itself, the same on both cores: the stores join the
filling bank, and eight stores of the draining bank reach memory in each cycle (R141, R146). -/
def Stays (s : State) (t : Nat) (r : Ret) : State :=
  let s1 := (s.setTile t ((s.tile t).retire r r)).drain t (8 * r.cycles)
  { s1 with fresh := s1.fresh + 1 }

/-- The state after tile `t` retires an instruction of `len` words with the result `r`: the PC moves past it or to the branch's
target (R105). -/
def After (s : State) (t len : Nat) (r : Ret) : State :=
  Stays s t { r with cpu := { r.cpu with pc := r.jump.getD (r.cpu.pc + BitVec.ofNat 17 len) } }

/-- A result in ga with all of Z, N, C and V. -/
def arith (u : Cpu) (a : Reg) (r : Word) (c v : Bool) : Ret :=
  { cpu := { u.setReg a r with fl := ⟨decide (r = 0), r.msb, c, v, u.fl.s⟩ } }

/-- A result in ga with Z and N; C, V and S stay. -/
def logic (u : Cpu) (a : Reg) (r : Word) : Ret :=
  { cpu := { u.setReg a r with fl := { u.fl with z := decide (r = 0), n := r.msb } } }

/-- Flags alone, of a result that goes nowhere. -/
def flagsOnly {w : Nat} (u : Cpu) (r : BitVec w) (c v : Bool) : Ret :=
  { cpu := { u with fl := ⟨decide (r = 0), r.msb, c, v, u.fl.s⟩ } }

/-- A pair result in da with all of Z, N, C and V. -/
def arithD (u : Cpu) (a : Reg) (r : Dword) (c v : Bool) : Ret :=
  { cpu := { u.setPair a r with fl := ⟨decide (r = 0), r.msb, c, v, u.fl.s⟩ } }

/-- A pair result in da with Z and N. -/
def logicD (u : Cpu) (a : Reg) (r : Dword) : Ret :=
  { cpu := { u.setPair a r with fl := { u.fl with z := decide (r = 0), n := r.msb } } }

/-- A saturated result in ga: Z, N and V, and S whenever V. -/
def satResult (u : Cpu) (a : Reg) (lo hi x : Int) : Ret :=
  let r := BitVec.ofInt 18 (max lo (min hi x))
  let sat := decide (x < lo ∨ hi < x)
  { cpu := { u.setReg a r with fl := ⟨decide (r = 0), r.msb, u.fl.c, sat, u.fl.s || sat⟩ } }

/-- A shift's result in ga: Z, N and C; V and S stay. -/
def shiftResult (u : Cpu) (a : Reg) (r : Word) (c : Bool) : Ret :=
  { cpu := { u.setReg a r with fl := { u.fl with z := decide (r = 0), n := r.msb, c := c } } }

/-- The word of a flag. -/
def bit (b : Bool) : Word := if b then 1 else 0

/-- The sixteen words of a trap's frame (R132): f0 REP, DETAIL and the trap's number, f1 the instruction's PC, f2 where RETT goes,
f3 FL, f4 CT, f5 repetitions left, f6 and f7 the instruction's words, f8–f15 g0–g7. -/
def frameWords (c : Cpu) (num detail : Nat) (f2 : Addr) (f5 : Nat) (w w2 : Word) : List Word :=
  [BitVec.ofNat 18 ((if c.rep = .none then 0 else 512) + 8 * detail + num), c.pc.setWidth 18, f2.setWidth 18,
   bit c.fl.z + 2 * bit c.fl.n + 4 * bit c.fl.c + 8 * bit c.fl.v + 16 * bit c.fl.s, c.ct, BitVec.ofNat 18 f5, w, w2,
   c.reg 0, c.reg 1, c.reg 2, c.reg 3, c.reg 4, c.reg 5, c.reg 6, c.reg 7]

/-- The entry of a trap (R131, R132): the frame goes to words 0–15 of the tile's data memory, g0 and g1 take f0 and f1, for trap 0
g2–g6 take the operands, the second word and RC; TRAPACT is set and the PC is 8 times the trap's number; 12 cycles. -/
def trapEntry (c : Cpu) (num detail : Nat) (f2 : Addr) (f5 : Nat) (w w2 : Word) (extra : Nat) : Ret :=
  let f := frameWords c num detail f2 f5 w w2
  let c1 := (c.setReg 0 (f.getD 0 0)).setReg 1 (f.getD 1 0)
  let c2 :=
    if num = 0 then
      ((((c1.setReg 2 (c.reg (w.extractLsb' 9 3))).setReg 3 (c.reg (w.extractLsb' 6 3))).setReg 4
        (c.reg (w.extractLsb' 0 3))).setReg 5 w2).setReg 6 (if c.rep = .none then 0 else c.rc)
    else c1
  { cpu := { c2 with trapact := true, trapNum := num, rep := .none, rc := 0, ctPending := none }
    stores := (List.range 16).map fun i => (BitVec.ofNat 17 i, f.getD i 0)
    jump := some (BitVec.ofNat 17 (8 * num))
    cycles := 12 + extra }

/-- Stores of the instruction itself before a result's own. -/
def withStores (l : List (Addr × Word)) (r : Ret) : Ret := { r with stores := l ++ r.stores }

/-- Tile `t` is about to retire one repetition of a REP's target. -/
def Repeats (s : State) (t : Nat) : Prop := Runs s t ∧ (s.tile t).cpu.rep ≠ .none

/-- What a command answers after one retire step of an instruction of several: the same command goes on from there while the
instruction is part way through, its window is not to close and the tile runs (R147). -/
def Continues (mid : Cpu → Bool) (again : State → Out) (t : Nat) (s : State) : Out :=
  if (s.tile t).goesOn mid then again s else .next s

/-- A descriptor's ticket on a ring. -/
def ticketOf (r : Nat) (q : Req) : Ticket := ⟨r, q.origin, q.desc.tag⟩

/-- Ring `r` takes the descriptor of `q`, the next of its engine, giving `s1`, and it runs with at least the right named
(R279, R464, R466). -/
def Taken (s : State) (r code right : Nat) (q : Req) (s1 : State) (q1 : Req) : Prop :=
  s.takeReq r code q = some (s1, q1) ∧ right ≤ s1.rightOf r q.origin

/-- R112: whether a condition holds, as its table lists the sixteen. -/
def condition (f : Flags) (cc : Nat) : Prop :=
  match cc with
  | 0 => True
  | 1 => f.z = true
  | 2 => f.z = false
  | 3 => f.c = true
  | 4 => f.c = false
  | 5 => f.n = true
  | 6 => f.n = false
  | 7 => f.v = true
  | 8 => f.v = false
  | 9 => f.n ≠ f.v
  | 10 => f.n = f.v
  | 11 => f.z = true ∨ f.n ≠ f.v
  | 12 => f.z = false ∧ f.n = f.v
  | 13 => f.c = true ∨ f.z = true
  | 14 => f.c = false ∧ f.z = false
  | _ => f.s = true

end Sys2Proof.Claims
end

