-- ==== Sys2Proof/Certificates/Slice0/Obligations.lean ====
section
/-!
DEFINITION. The statements for the provers. Every statement about a command says which next state exec answers, as an equation
where the command's effect is small, so that what the equation does not change stays as it was.
-/

open Sys2Proof Sys2Proof.Machine Sys2Proof.Claims

/-! ## Tile instructions -/

/-- R113, R116, R103: ADD, ADC, SUB, SBC, NEG and their immediate forms. C is the carry or borrow out, V the signed overflow: the
result differs from the exact sum or difference. R113, R114: exact products in two cycles; divides in 19: the quotient truncated
towards zero in the even register, the remainder in the odd one, where the divisor is not 0 and the quotient fits; else
saturation, and a divisor of 0 traps. -/
def Obligations.Arithmetic : Prop :=
  (∀ (s : State) (t : Nat) (a b c : Reg) (imm6 : BitVec 6) (imm : Word), Ready s t →
     let u := (s.tile t).cpu
     let x := u.reg b
     let y := u.reg c
     let k := imm6.signExtend 18
     let cy : Nat := if u.fl.c then 1 else 0
     let sum (len : Nat) (y : Word) (i : Nat) : Out :=
       let r := x + y + BitVec.ofNat 18 i
       .next (After s t len (arith u a r (decide (2 ^ 18 ≤ x.toNat + y.toNat + i)) (decide (r.toInt ≠ x.toInt + y.toInt + i))))
     let dif (len : Nat) (x y : Word) (i : Nat) : Out :=
       let r := x - y - BitVec.ofNat 18 i
       .next (After s t len (arith u a r (decide (x.toNat < y.toNat + i)) (decide (r.toInt ≠ x.toInt - y.toInt - i))))
     exec (.add t a b c) s = sum 1 y 0 ∧ exec (.adc t a b c) s = sum 1 y cy ∧
     exec (.sub t a b c) s = dif 1 x y 0 ∧ exec (.sbc t a b c) s = dif 1 x y cy ∧
     exec (.neg t a b) s = dif 1 0 x 0 ∧ exec (.addi t a b imm6) s = sum 1 k 0 ∧
     exec (.addiImm18 t a b imm) s = sum 2 imm 0 ∧ exec (.subi t a b imm) s = dif 2 x imm 0) ∧
  (∀ (s : State) (t : Nat) (a b c : Reg), Ready s t →
     let u := (s.tile t).cpu
     let x := u.reg b
     let y := u.reg c
     let d := u.pair b
     let product (p : Dword) : Out :=
       .next (After s t 1 { cpu := { u.setPair a p with fl := ⟨decide (p = 0), p.msb, false, false, u.fl.s⟩ }, cycles := 2 })
     let quotient (q r : Word) (sat : Bool) : Out :=
       .next (After s t 1 { cpu := { (u.setReg (evenReg a) q).setReg (oddReg a) r with
         fl := ⟨decide (q = 0), q.msb, false, sat, u.fl.s || sat⟩ }, cycles := 19 })
     let q := d.toInt.tdiv y.toInt
     exec (.muls t a b c) s = product (x.signExtend 36 * y.signExtend 36) ∧
     exec (.mulu t a b c) s = product (x.zeroExtend 36 * y.zeroExtend 36) ∧
     (y ≠ 0 → -131072 ≤ q → q ≤ 131071 →
       exec (.divs t a b c) s = quotient (BitVec.ofInt 18 q) (BitVec.ofInt 18 (d.toInt - q * y.toInt)) false) ∧
     (y ≠ 0 → q < -131072 → exec (.divs t a b c) s = quotient 0o400_000 0 true) ∧
     (y ≠ 0 → 131071 < q → exec (.divs t a b c) s = quotient 0o377_777 0 true) ∧
     (y ≠ 0 → d.toNat / y.toNat ≤ 262143 → exec (.divu t a b c) s =
       quotient (BitVec.ofNat 18 (d.toNat / y.toNat)) (BitVec.ofNat 18 (d.toNat % y.toNat)) false) ∧
     (y ≠ 0 → 262143 < d.toNat / y.toNat → exec (.divu t a b c) s = quotient 0o777_777 0 true))

/-- R113, R116: the logic instructions write ga with Z and N and leave C, V and S. R111, R116, R137: moves change no flag but
WRFL, which writes all five; RDFL and RDCT read FL and CT. R113, R116: compares and tests write flags alone. -/
def Obligations.LogicMovesCompares : Prop :=
  (∀ (s : State) (t : Nat) (a b c : Reg) (imm : Word), Ready s t →
     let u := (s.tile t).cpu
     let x := u.reg b
     let y := u.reg c
     let gives (len : Nat) (r : Word) : Out := .next (After s t len (logic u a r))
     exec (.and_ t a b c) s = gives 1 (x &&& y) ∧ exec (.or_ t a b c) s = gives 1 (x ||| y) ∧
     exec (.xor_ t a b c) s = gives 1 (x ^^^ y) ∧ exec (.andn t a b c) s = gives 1 (x &&& ~~~ y) ∧
     exec (.not_ t a b) s = gives 1 (~~~ x) ∧ exec (.andi t a b imm) s = gives 2 (x &&& imm) ∧
     exec (.ori t a b imm) s = gives 2 (x ||| imm) ∧ exec (.xori t a b imm) s = gives 2 (x ^^^ imm)) ∧
  (∀ (s : State) (t : Nat) (a b : Reg) (imm6 n : BitVec 6) (imm : Word), Ready s t →
     let u := (s.tile t).cpu
     let x := u.reg b
     let gives (len : Nat) (c : Cpu) : Out := .next (After s t len { cpu := c })
     exec (.nop t) s = gives 1 u ∧ exec (.mov t a b) s = gives 1 (u.setReg a x) ∧
     exec (.swap t a b) s = gives 1 ((u.setReg a x).setReg b (u.reg a)) ∧
     exec (.movd t a b) s = gives 1 (u.setPair a (u.pair b)) ∧
     exec (.movi t a imm6) s = gives 1 (u.setReg a (imm6.signExtend 18)) ∧
     exec (.moviImm18 t a imm) s = gives 2 (u.setReg a imm) ∧
     exec (.rdfl t a) s = gives 1 (u.setReg a
       (bit u.fl.z + 2 * bit u.fl.n + 4 * bit u.fl.c + 8 * bit u.fl.v + 16 * bit u.fl.s)) ∧
     exec (.wrfl t b) s = gives 1 { u with fl := ⟨x.getLsbD 0, x.getLsbD 1, x.getLsbD 2, x.getLsbD 3, x.getLsbD 4⟩ } ∧
     exec (.rdct t a) s = gives 1 (u.setReg a u.ct) ∧ exec (.wrct t b) s = gives 1 { u with ct := x } ∧
     exec (.rdfeat t a n) s = gives 1 (u.setReg a (tileFeature t (s.mem t) n.toNat))) ∧
  (∀ (s : State) (t : Nat) (a b : Reg) (imm6 : BitVec 6) (imm : Word), Ready s t →
     let u := (s.tile t).cpu
     let x := u.reg a
     let y := u.reg b
     let k := imm6.signExtend 18
     let against (len : Nat) (y : Word) : Out :=
       .next (After s t len (flagsOnly u (x - y) (decide (x.toNat < y.toNat)) (decide ((x - y).toInt ≠ x.toInt - y.toInt))))
     let test (len : Nat) (r : Word) : Out := .next (After s t len (flagsOnly u r u.fl.c u.fl.v))
     exec (.cmp t a b) s = against 1 y ∧ exec (.cmpi t a imm6) s = against 1 k ∧ exec (.cmpiImm18 t a imm) s = against 2 imm ∧
     exec (.tst t a b) s = test 1 (x &&& y) ∧ exec (.tsti t a imm) s = test 2 (x &&& imm) ∧
     exec (.cmpd t a b) s = .next (After s t 1 (flagsOnly u (u.pair a - u.pair b)
       (decide ((u.pair a).toNat < (u.pair b).toNat))
       (decide ((u.pair a - u.pair b).toInt ≠ (u.pair a).toInt - (u.pair b).toInt)))))

/-- R113, R116: saturation at −131,072 and 131,071, or at 0 and 262,143; V and S say that it happened. Minimum and maximum, signed
and unsigned. R113: shifts and rotates by a count taken as at most 17; C is the last bit shifted out, 0 for a count of 0. -/
def Obligations.SaturateMinMaxShifts : Prop :=
  (∀ (s : State) (t : Nat) (a b c : Reg) (imm : Word), Ready s t →
     let u := (s.tile t).cpu
     let x := u.reg b
     let y := u.reg c
     let sat (len : Nat) (lo hi v : Int) : Out := .next (After s t len (satResult u a lo hi v))
     let gives (len : Nat) (r : Word) : Out := .next (After s t len (logic u a r))
     exec (.adds t a b c) s = sat 1 (-131072) 131071 (x.toInt + y.toInt) ∧
     exec (.subs t a b c) s = sat 1 (-131072) 131071 (x.toInt - y.toInt) ∧
     exec (.addsi t a b imm) s = sat 2 (-131072) 131071 (x.toInt + imm.toInt) ∧
     exec (.addus t a b c) s = sat 1 0 262143 (x.toNat + y.toNat) ∧
     exec (.subus t a b c) s = sat 1 0 262143 ((x.toNat : Int) - y.toNat) ∧
     exec (.min_ t a b c) s = gives 1 (if y.slt x then y else x) ∧ exec (.max_ t a b c) s = gives 1 (if x.slt y then y else x) ∧
     exec (.minu t a b c) s = gives 1 (if y < x then y else x) ∧ exec (.maxu t a b c) s = gives 1 (if x < y then y else x) ∧
     exec (.mini t a b imm) s = gives 2 (if imm.slt x then imm else x) ∧
     exec (.maxi t a b imm) s = gives 2 (if x.slt imm then imm else x)) ∧
  (∀ (s : State) (t : Nat) (a b c : Reg) (n6 : BitVec 6), Ready s t →
     let u := (s.tile t).cpu
     let x := u.reg b
     let gives (r : Word) (cy : Bool) : Out := .next (After s t 1 (shiftResult u a r cy))
     let left (n : Nat) : Bool := decide (0 < n) && x.getLsbD (18 - n)
     let right (n : Nat) : Bool := decide (0 < n) && x.getLsbD (n - 1)
     let n := min (u.reg c).toNat 17
     let k := min n6.toNat 17
     exec (.shl t a b c) s = gives (x <<< n) (left n) ∧ exec (.shr t a b c) s = gives (x >>> n) (right n) ∧
     exec (.sar t a b c) s = gives (x.sshiftRight n) (right n) ∧ exec (.rol t a b c) s = gives (x.rotateLeft n) (left n) ∧
     exec (.ror t a b c) s = gives (x.rotateRight n) (right n) ∧ exec (.shli t a b n6) s = gives (x <<< k) (left k) ∧
     exec (.shri t a b n6) s = gives (x >>> k) (right k) ∧ exec (.sari t a b n6) s = gives (x.sshiftRight k) (right k))

/-- R113, R124: a bit number from 18 to 63 is taken as 17, and Z is the complement of the old bit; the counts; the bit and nonet
reversals and sign extensions. R123: a field of LEN bits from POS, with POS taken as at most 17 and LEN as 1 to 18 − POS; the
second word holds both. R113, R125: the pair instructions; NPERM's two-bit selectors, from nonet 0 upward, each name a nonet of
db. -/
def Obligations.BitsFieldsPairs : Prop :=
  (∀ (s : State) (t : Nat) (a b : Reg) (n : BitVec 6), Ready s t →
     let u := (s.tile t).cpu
     let old := u.reg a
     let x := u.reg b
     let i := min n.toNat 17
     let bitResult (r : Word) : Out :=
       .next (After s t 1 { cpu := { u.setReg a r with fl := { u.fl with z := !old.getLsbD i } } })
     let gives (r : Word) : Out := .next (After s t 1 (logic u a r))
     exec (.btst t a n) s = bitResult old ∧ exec (.bset t a n) s = bitResult (old ||| ((1 : Word) <<< i)) ∧
     exec (.bclr t a n) s = bitResult (old &&& ~~~ ((1 : Word) <<< i)) ∧ exec (.binv t a n) s = bitResult (old ^^^ ((1 : Word) <<< i)) ∧
     (∃ k, k ≤ 18 ∧ (∀ j, j < k → x.getLsbD (17 - j) = false) ∧ (k < 18 → x.getLsbD (17 - k) = true) ∧
       exec (.clz t a b) s = gives (BitVec.ofNat 18 k)) ∧
     (∃ k, k ≤ 18 ∧ (∀ j, j < k → x.getLsbD j = false) ∧ (k < 18 → x.getLsbD k = true) ∧
       exec (.ctz t a b) s = gives (BitVec.ofNat 18 k)) ∧
     exec (.popc t a b) s = gives (BitVec.ofNat 18 ((List.range 18).countP fun j => x.getLsbD j)) ∧
     exec (.brev t a b) s = gives x.reverse ∧ exec (.swn t a b) s = gives (x.rotateLeft 9) ∧
     exec (.sxo t a b) s = gives ((x.setWidth 8).signExtend 18) ∧ exec (.sxn t a b) s = gives ((x.setWidth 9).signExtend 18)) ∧
  (∀ (s : State) (t : Nat) (a b : Reg) (pos len : BitVec 6), Ready s t →
     let u := (s.tile t).cpu
     let old := u.reg a
     let x := u.reg b
     let p := min pos.toNat 17
     let l := max 1 (min len.toNat (18 - p))
     let gives (r : Word → Prop) (c : Instr) : Prop := ∃ w, r w ∧ exec c s = .next (After s t 2 (logic u a w))
     gives (fun w => ∀ i, i < 18 → w.getLsbD i = (decide (i < l) && x.getLsbD (p + i))) (.bfx t a b pos len) ∧
     gives (fun w => ∀ i, i < 18 → w.getLsbD i = (if i < l then x.getLsbD (p + i) else x.getLsbD (p + l - 1)))
       (.bfxs t a b pos len) ∧
     gives (fun w => ∀ i, i < 18 → w.getLsbD i = (if p ≤ i ∧ i < p + l then x.getLsbD (i - p) else old.getLsbD i))
       (.bfi t a b pos len) ∧
     gives (fun w => ∀ i, i < 18 → w.getLsbD i = (!decide (p ≤ i ∧ i < p + l) && old.getLsbD i)) (.bfc t a pos len) ∧
     gives (fun w => ∀ i, i < 18 → w.getLsbD i = (decide (p ≤ i ∧ i < p + l) || old.getLsbD i)) (.bfs t a pos len)) ∧
  (∀ (s : State) (t : Nat) (a b c : Reg) (sel : BitVec 8), Ready s t →
     let u := (s.tile t).cpu
     let x := u.pair b
     let y := u.pair c
     let nonet (d : Dword) (i : Nat) : Nat := d.toNat / 512 ^ i % 512
     exec (.addd t a b c) s = .next (After s t 1 (arithD u a (x + y) (decide (2 ^ 36 ≤ x.toNat + y.toNat))
       (decide ((x + y).toInt ≠ x.toInt + y.toInt)))) ∧
     exec (.subd t a b c) s = .next (After s t 1 (arithD u a (x - y) (decide (x.toNat < y.toNat))
       (decide ((x - y).toInt ≠ x.toInt - y.toInt)))) ∧
     exec (.andd t a b c) s = .next (After s t 1 (logicD u a (x &&& y))) ∧
     exec (.ord_ t a b c) s = .next (After s t 1 (logicD u a (x ||| y))) ∧
     exec (.xord t a b c) s = .next (After s t 1 (logicD u a (x ^^^ y))) ∧
     ∃ r : Dword, (∀ i, i < 4 → nonet r i = nonet x (sel.toNat / 4 ^ i % 4)) ∧
       exec (.nperm t a b sel) s = .next (After s t 1 { cpu := u.setPair a r }))

/-- R107, R111, R112, R116, R126, R129: branches take two cycles when taken and one when not; a relative target counts from the
word after the branch; LOOP counts CT down; REP latches CT as RC and waits for its target. R118: the stack lies in SBLO to SBHI
and grows down; PUSHD puts the low word at the lower address; calls push the address after the call. It follows the model's
readings in log entries 80, 26. -/
def Obligations.BranchesAndCalls : Prop :=
  (∀ (s : State) (t : Nat) (b : Reg) (cc : BitVec 4) (off9 : BitVec 9) (off12 : BitVec 12) (target : Word), Ready s t →
     let u := (s.tile t).cpu
     let goes (len : Nat) (c : Cpu) (dest : Addr) : Out := .next (After s t len { cpu := c, jump := some dest, cycles := 2 })
     let stays (len : Nat) (c : Cpu) : Out := .next (After s t len { cpu := c })
     let less := u.ct - 1
     (condition u.fl cc.toNat → exec (.br t cc off9) s = goes 1 u (u.pc + 1 + off9.signExtend 17) ∧
       exec (.jcc t cc target) s = goes 2 u (target.setWidth 17)) ∧
     (¬ condition u.fl cc.toNat → exec (.br t cc off9) s = stays 1 u ∧ exec (.jcc t cc target) s = stays 2 u) ∧
     exec (.bra t off12) s = goes 1 u (u.pc + 1 + off12.signExtend 17) ∧
     exec (.jmp t b) s = goes 1 u ((u.reg b).setWidth 17) ∧
     (u.ct = 0 → exec (.loop t off12) s = stays 1 u) ∧
     (u.ct = 1 → exec (.loop t off12) s = stays 1 { u with ct := 0 }) ∧
     (u.ct ≠ 0 → u.ct ≠ 1 → exec (.loop t off12) s = goes 1 { u with ct := less } (u.pc + 1 + off12.signExtend 17)) ∧
     exec (.rep t) s = stays 1 { u with rep := .armed, rc := u.ct, ctPending := none }) ∧
  (∀ (s : State) (t : Nat) (a b : Reg) (off12 : BitVec 12) (target : Word), Ready s t →
     let x := s.tile t
     let u := x.cpu
     let sp := (u.reg 7).toNat
     let lo := (s.mem t).sblo.toNat
     let hi := (s.mem t).sbhi.toNat
     let at' (i : Int) : Addr := BitVec.ofInt 17 (sp + i)
     let read (i : Int) : Word := x.load (s.mem t) (at' i)
     let gives (len : Nat) (r : Ret) : Out := .next (After s t len r)
     let call (len : Nat) (dest : Addr) : Out :=
       gives len { cpu := u.setReg 7 (u.reg 7 - 1), jump := some dest, cycles := 2
                   stores := [(at' (-1), (u.pc + BitVec.ofNat 17 len).setWidth 18)] }
     (lo + 1 ≤ sp ∧ sp ≤ hi + 1 →
       exec (.push t a) s = gives 1 { cpu := u.setReg 7 (u.reg 7 - 1), stores := [(at' (-1), u.reg a)] } ∧
       exec (.bsr t off12) s = call 1 (u.pc + 1 + off12.signExtend 17) ∧
       exec (.jsr t b) s = call 1 ((u.reg b).setWidth 17) ∧ exec (.calla t target) s = call 2 (target.setWidth 17)) ∧
     (lo + 2 ≤ sp ∧ sp ≤ hi + 1 →
       exec (.pushd t a) s = gives 1 { cpu := u.setReg 7 (u.reg 7 - 2), cycles := 2
                                       stores := [(at' (-1), u.reg (oddReg a)), (at' (-2), u.reg (evenReg a))] }) ∧
     (lo ≤ sp ∧ sp + 1 ≤ hi + 1 →
       exec (.pop t a) s = gives 1 { cpu := (u.setReg a (read 0)).setReg 7 (u.reg 7 + 1) } ∧
       exec (.ret t) s = gives 1 { cpu := u.setReg 7 (u.reg 7 + 1), jump := some ((read 0).setWidth 17), cycles := 2 }) ∧
     (lo ≤ sp ∧ sp + 2 ≤ hi + 1 →
       exec (.popd t a) s = gives 1 { cpu := (u.setPair a (read 1 ++ read 0)).setReg 7 (u.reg 7 + 2), cycles := 2 }))

/-- R115, R116: loads and stores of tile data memory, the effective address (gb + simm6) modulo 131,072 or the instruction's own;
a load sees the youngest store to its address. LDC reads code. R119: a nonet address names nonet 0 or 1, in bit 0, of the word in
bits 17:1. A load sets Z when bits 7:0 are 0 and C to bit 8; a store replaces one nonet; the I forms then add 1 to gb. -/
def Obligations.LoadsAndStores : Prop :=
  (∀ (s : State) (t : Nat) (a b : Reg) (imm : BitVec 6) (addr : Word), Ready s t →
     let x := s.tile t
     let u := x.cpu
     let ea : Addr := (u.reg b + imm.signExtend 18).setWidth 17
     let ab : Addr := addr.setWidth 17
     let read (k : Addr) : Word := x.load (s.mem t) k
     let lo := u.reg (evenReg a)
     let hi := u.reg (oddReg a)
     let gives (len : Nat) (r : Ret) : Out := .next (After s t len r)
     exec (.ld t a b imm) s = gives 1 { cpu := u.setReg a (read ea) } ∧
     exec (.st t a b imm) s = gives 1 { cpu := u, stores := [(ea, u.reg a)] } ∧
     exec (.ldd t a b imm) s = gives 1 { cpu := u.setPair a (read (ea + 1) ++ read ea), cycles := 2 } ∧
     exec (.std t a b imm) s = gives 1 { cpu := u, stores := [(ea, lo), (ea + 1, hi)], cycles := 2 } ∧
     exec (.lda t a addr) s = gives 2 { cpu := u.setReg a (read ab) } ∧
     exec (.sta t a addr) s = gives 2 { cpu := u, stores := [(ab, u.reg a)] } ∧
     exec (.ldda t a addr) s = gives 2 { cpu := u.setPair a (read (ab + 1) ++ read ab), cycles := 2 } ∧
     exec (.stda t a addr) s = gives 2 { cpu := u, stores := [(ab, lo), (ab + 1, hi)], cycles := 2 } ∧
     exec (.ldc t a b imm) s = gives 1 { cpu := u.setReg a (Tbl.get 0 (s.mem t).code ea.toNat), cycles := 2 }) ∧
  (∀ (s : State) (t : Nat) (a b : Reg), Ready s t →
     let x := s.tile t
     let u := x.cpu
     let n := u.reg b
     let k : Addr := BitVec.ofNat 17 (n.toNat / 2)
     let old := x.load (s.mem t) k
     let high := n.getLsbD 0
     let v : BitVec 9 := if high then old.extractLsb' 9 9 else old.extractLsb' 0 9
     let loaded : Cpu := { u.setReg a (v.setWidth 18) with
       fl := { u.fl with z := decide (v.toNat % 256 = 0), c := v.getLsbD 8 } }
     let put : Word := if high then (u.reg a).setWidth 9 ++ old.setWidth 9 else old.extractLsb' 9 9 ++ (u.reg a).setWidth 9
     let gives (r : Ret) : Out := .next (After s t 1 r)
     exec (.ldn t a b) s = gives { cpu := loaded } ∧ exec (.ldni t a b) s = gives { cpu := loaded.setReg b (n + 1) } ∧
     exec (.stn t a b) s = gives { cpu := u, stores := [(k, put)] } ∧
     exec (.stni t a b) s = gives { cpu := u.setReg b (n + 1), stores := [(k, put)] })

/-- R66, R67, R117, R120: far loads read the input image, or the task's own held write, or the value committed at the end of the
last tick; an INDEX beyond its area is clamped; far stores are effect requests; six to twelve cycles. It follows the model's
readings in log entry 6. It follows the model's readings in log entry 81. -/
def Obligations.FarAccess : Prop :=
  ∀ (s : State) (t : Nat) (a b : Reg), Ready s t →
    let x := s.tile t
    let u := x.cpu
    let m := s.work.mortar
    let area := (u.reg (oddReg b)).toNat % 8
    let i := (u.reg (evenReg b)).toNat
    let at' (k : Nat) : Nat := min k (if area ≤ 1 then 32767 else if area = 2 then 8191 else 262143)
    let held (k : Nat) : Option Word := Tbl.get none x.held (area * 2 ^ 18 + at' k)
    let read (k : Nat) : Word :=
      if area = 0 then Tbl.get 0 m.input (at' k)
      else if area = 1 then (held k).getD (Tbl.get 0 m.out (at' k))
      else if area = 2 then (held k).getD (Tbl.get 0 m.exch (at' k)) else 0
    let item (k : Nat) : Dword := BitVec.ofNat 36 (2 * 2 ^ 34 + area * 2 ^ 18 + at' k)
    let next := u.reg (evenReg b) + 1
    ∃ n, 6 ≤ n ∧ n ≤ 12 ∧
      (let load (c : Cpu) (l : List Dword) : Out := .next (After s t 1 { cpu := c, cycles := n, folds := l })
       let store (c : Cpu) (l : List Word) : Out :=
         .next (After s t 1 { cpu := c, cycles := n, effect := some (.farStore area (at' i) l) })
       exec (.fld t a b) s = load (u.setReg a (read i)) [item i] ∧
       exec (.fldi t a b) s = load ((u.setReg a (read i)).setReg (evenReg b) next) [item i] ∧
       exec (.fldd t a b) s = load (u.setPair a (read (i + 1) ++ read i)) [item i, item (i + 1)] ∧
       exec (.fst_ t a b) s = store u [u.reg a] ∧ exec (.fsti t a b) s = store (u.setReg (evenReg b) next) [u.reg a] ∧
       exec (.fstd t a b) s = store u [u.reg (evenReg a), u.reg (oddReg a)])

/-- R111, R122, R145, R147, R149: END and SEND retire in steps. The header comes first, 8 cycles for END and 4 for SEND; END's
payload, its held words in index order, follows in one step for each run of up to 16 words of the task's declared write set, one
cycle each, and SEND's in one step of a cycle for each word of the channel's block, a channel above 31 taken as 31. After each
step the command goes on with the next one unless the window is to close or the tile stops, and then takes it up where it stands.
POST takes its eight words in one step of 12 cycles. With the last step the request stands, and leaves the bond only when its
window closes. It follows the model's readings in log entry 27. -/
def Obligations.RequestsInSteps : Prop :=
  ∀ (s : State) (t : Nat) (b : Reg) (addr : Word), Ready s t →
    let x := s.tile t
    let u := x.cpu
    let ch := min 31 (u.reg b).toNat
    let n := if (s.channel ch).bind.len16 then 16 else 8
    let block (k : Nat) : List Word := (List.range k).map fun i => x.load (s.mem t) (addr.setWidth 17 + BitVec.ofNat 17 i)
    let words := x.held.map fun e => e.2.getD 0
    let done (len : Nat) (r : Ret) : Out := .next (After s t len r)
    let ends (r : Ret) : Out := Continues Cpu.asking (exec (.end_ t)) t (Stays s t r)
    let sends (r : Ret) : Out := Continues Cpu.asking (exec (.send t b addr)) t (Stays s t r)
    (∀ act d, x.activation = some act → s.work.program.tasks.find? (fun e => e.task == act.entry.task) = some d →
      let m := (d.writes.map WordRange.len).sum
      (u.request = none → m = 0 →
        exec (.end_ t) s = done 1 { cpu := u, cycles := 8, folds := effectHeader 3 0 0 :: payloadItems 0 words, effect := some .finish }) ∧
      (u.request = none → m ≠ 0 →
        exec (.end_ t) s = ends { cpu := { u with request := some 0 }, cycles := 8, folds := [effectHeader 3 m 0], hold := true }) ∧
      ∀ k, u.request = some k →
        (k + 16 < m → exec (.end_ t) s = ends { cpu := { u with request := some (k + 16) }, cycles := 16, hold := true
                                                folds := payloadItems k ((words.drop k).take 16) }) ∧
        (m ≤ k + 16 → exec (.end_ t) s = done 1 { cpu := { u with request := none }, cycles := m - k, effect := some .finish
                                                  folds := payloadItems k (words.drop k) })) ∧
    (u.request = none →
      exec (.send t b addr) s = sends { cpu := { u with request := some 0 }, cycles := 4, folds := [effectHeader 1 ch 0], hold := true }) ∧
    (u.request ≠ none → exec (.send t b addr) s =
      done 2 { cpu := { u with request := none }, cycles := n, folds := payloadItems 0 (block n), effect := some (.send ch (block n)) }) ∧
    exec (.post t b addr) s = done 2 { cpu := u, cycles := 12, effect := some (.post (u.reg b).toNat (block 8)) }

/-- R94, R96, R97: a SOLVE runs its stage entries, courses and write-backs one by one. While more follow, the PC, the registers
and the flags stay, and the command goes on with the next unless the window is to close or the tile stops; it then takes the block
up where it stands. At return the RLOs are in g0, WA is in g1 and SAT in S, and no other register or flag has changed. R80, R94,
R95: a stage entry puts its constant, or the word of its area as the task sees it, into its bed word; a write-back stores its bed
word in tile data memory or adds it to the held writes. R98, R130, R131: an illegal course raises trap 2 with its cause and the
code address of the offending word; its frame holds the registers before the SOLVE, nothing of the offending course stands, and
the block is given up. It follows the model's readings in log entry 27. It follows the model's readings in log entries 78, 79. -/
def Obligations.SolveAndItsTraps : Prop :=
  (∀ (s : State) (t : Nat) (block : Word), Ready s t →
     let x := s.tile t
     let u := x.cpu
     let r := solveRet s t x u block
     let v := r.cpu.solver
     r.trap = none → r.effect = none ∧ r.jump = none ∧
       (r.hold = true → v.next ≠ none ∧ r.cpu = { u with solver := v } ∧
         exec (.solve t block) s = Continues Cpu.solving (exec (.solve t block)) t (Stays s t r)) ∧
       (r.hold = false → v.next = none ∧ exec (.solve t block) s = .next (After s t 2 r) ∧
         r.cpu.reg 0 = bit v.rlo0 + 2 * bit v.rlo1 ∧ r.cpu.reg 1 = v.wa ∧ (∀ i, i ≠ 0 → i ≠ 1 → r.cpu.reg i = u.reg i) ∧
         r.cpu.fl = { u.fl with s := u.fl.s || v.sat } ∧ r.cpu.ct = u.ct)) ∧
  (∀ (s : State) (t : Nat) (block : Word) (h : BlockHeader),
     let x := s.tile t
     let u := x.cpu
     let v := u.solver
     let code (i : Nat) : Word := Tbl.get 0 (s.mem t).code (((block.setWidth 17).toNat + i) % 131072)
     let r := solveRet s t x u block
     readHeader code = some h →
     (∀ i, v.next = some (.stage i) →
       let s0 := (code (6 + 2 * i)).toNat
       let area := s0 / 2 ^ 15
       let k := (code (7 + 2 * i)).toNat
       let w : Word := if area = 4 then code (7 + 2 * i) else if area = 3 then x.load (s.mem t) (BitVec.ofNat 17 k)
         else farLoad s.work.mortar x area k
       r.hold = true ∧ r.cpu = { u with solver :=
         { v with bed := Tbl.set 0 v.bed (s0 % 64) w, next := some (if i + 1 < h.stages then .stage (i + 1) else .course 0 0) } }) ∧
     (∀ i e, v.next = some (.writeBack i) → ((stageList h code).filter StageEntry.wb)[i]? = some e →
       let w : Word := Tbl.get 0 v.bed e.bed
       (e.area = 3 → r.stores = [(BitVec.ofNat 17 e.index, w)] ∧ r.held = none) ∧
       (e.area ≠ 3 → r.stores = [] ∧ r.held = some (Tbl.set none x.held (e.area * 2 ^ 18 + e.index) (some w))))) ∧
  (∀ (s : State) (t : Nat) (block : Word), Ready s t →
     let x := s.tile t
     let u := x.cpu
     let r := solveRet s t x u block
     u.trapact = false → ∀ cause, r.trap = some (2, cause) →
       ∃ st v n, v.next = none ∧ (cause ≠ 7 → st = []) ∧ exec (.solve t block) s = .next (After s t 2 (withStores st
         (trapEntry { u with solver := v, trapAddr := r.trapAddr } 2 cause (u.pc + 2) 0 (header 0o64 0 0 0) block n))))

/-- R130–R132: what taking a trap does, on a reserved opcode (trap 0), a divisor of 0 (trap 4, after the saturated result) and a
stack access outside SBLO to SBHI (trap 5). R134: a trap while TRAPACT is set is a double trap, which ends the activation at the
window's close: an effect request that names both trap numbers, and no frame. R133: RETT restores FL, CT, g0–g7 and TRAPACT from
the frame, resumes a repetition that f5 names, and goes to f2. R135, R143: a correctable error in a word read is corrected in the
read and counted for its die; an uncorrectable one is trap 3: nothing of the instruction happens, the activation ends uncommitted
and Safe is due. It follows the model's readings in log entries 82, 83. -/
def Obligations.TrapsTaken : Prop :=
  (∀ (s : State) (t : Nat) (a b c : Reg) (w w2 : Word), Ready s t →
     let u := (s.tile t).cpu
     let sp := (u.reg 7).toNat
     u.trapact = false →
       (∀ d, reservedDetail w w2 = some d → exec (.reservedOpcodeTrap t w w2) s =
         .next (After s t 0 (trapEntry u 0 d (u.pc + BitVec.ofNat 17 (lengthOf w)) 0 w (if lengthOf w = 2 then w2 else 0) 0))) ∧
       (u.reg c = 0 →
         let q : Word := if (u.pair b).msb then 0o400_000 else 0o377_777
         let v : Cpu := { (u.setReg (evenReg a) q).setReg (oddReg a) 0 with fl := ⟨false, q.msb, false, true, true⟩ }
         exec (.divs t a b c) s = .next (After s t 0 (trapEntry v 4 0 (u.pc + 1) 0 (header 0o15 a b (0#3 ++ c)) 0 19))) ∧
       (sp < (s.mem t).sblo.toNat + 1 →
         exec (.push t a) s = .next (After s t 0 (trapEntry u 5 0 u.pc 0 (header 0o25 a 0 0) 0 0))) ∧
       ((s.mem t).sblo.toNat ≤ sp → (s.mem t).sbhi.toNat + 1 < sp + 1 →
         exec (.pop t a) s = .next (After s t 0 (trapEntry u 5 1 u.pc 0 (header 0o25 a 0 1) 0 0)))) ∧
  (∀ (s : State) (t : Nat) (w w2 : Word) (d : Nat), Ready s t →
     let x := s.tile t
     x.cpu.trapact = true → reservedDetail w w2 = some d →
       exec (.reservedOpcodeTrap t w w2) s = .next (After s t 0
         { cpu := x.cpu, cycles := 0, effect := some (.doubleTrap x.cpu.trapNum 0) })) ∧
  (∀ (s : State) (t : Nat) (ab : BitVec 6), Ready s t →
     let x := s.tile t
     let u := x.cpu
     let f (i : Nat) : Word := x.load (s.mem t) (BitVec.ofNat 17 i)
     let regs : Cpu := (List.range 8).foldl (fun (c : Cpu) i => c.setReg (BitVec.ofNat 3 i) (f (8 + i))) u
     let fl : Flags := ⟨(f 3).getLsbD 0, (f 3).getLsbD 1, (f 3).getLsbD 2, (f 3).getLsbD 3, (f 3).getLsbD 4⟩
     let c : Cpu := { regs with fl := fl, ct := f 4, trapact := false }
     let goes (c : Cpu) : Out := .next (After s t 1 { cpu := c, jump := some ((f 2).setWidth 17), cycles := 10 })
     (f 5 = 0 → exec (.rett ⟨t, ab⟩) s = goes c) ∧
     (f 5 ≠ 0 → exec (.rett ⟨t, ab⟩) s = goes { c with rep := .running, rc := f 5, ctPending := none })) ∧
  (∀ (s : State) (t : Nat) (a : Reg) (addr : Word) (correctable : Bool), s.upsets = [⟨.data t (addr.setWidth 17), correctable⟩] →
     Ready { s with upsets := [] } t → bankFind (addr.setWidth 17) (s.tile t).filling = none →
     bankFind (addr.setWidth 17) (s.tile t).draining = none →
     let d := t / s.tilesPerDie + 1
     let clean : State := { s with upsets := [] }
     let counted := clean.setDie d { s.die d with correctable := ((s.die d).correctable + 1) % 2 ^ 36 }
     (correctable = true → exec (.lda t a addr) s = exec (.lda t a addr) counted) ∧
     (correctable = false → s.md.mode = .run → ∃ s', exec (.lda t a addr) s = .next s' ∧ (s'.tile t).activation = none ∧
       (s'.tile t).held = [] ∧ (s'.tile t).filling = [] ∧ (s'.tile t).cpu.regs = (s.tile t).cpu.regs ∧ s'.md.safeDue = true ∧
       s'.work.mortar = s.work.mortar ∧ s'.upsets = []))

/-- R126–R128: under REP an instruction runs RC times: while RC is above 1 the PC stays and RC counts down; after the last one the
PC passes the target, RC is 0 and a WRCT takes effect. RC 0 runs it not at all, at no cost beyond the REP's cycle. An illegal
target, a REP for one, is trap 1. The frame of a retired instruction (R101, R115, R149): what it does not name stays. Every read
of the tile's data memory outside the words stored gives what it gave, and a word stored reads as stored; registers, memory and
units of other tiles, images, rings, channels and modes stay as they were. It follows the model's readings in log entry 26. -/
def Obligations.RepetitionAndFrame : Prop :=
  (∀ (s : State) (t : Nat) (b : Reg), Repeats s t →
     let u := (s.tile t).cpu
     let v := u.reg b
     (u.rep = .armed ∧ u.rc = 0 →
       exec (.wrct t b) s = .next (Stays s t { cpu := { u with rep := .none, pc := u.pc + 1 }, cycles := 0 })) ∧
     (1 < u.rc.toNat →
       exec (.wrct t b) s = .next (Stays s t { cpu := { u with rep := .running, rc := u.rc - 1, ctPending := some v } })) ∧
     (u.rc = 1 → exec (.wrct t b) s =
       .next (Stays s t { cpu := { u with rep := .none, rc := 0, ct := v, ctPending := none, pc := u.pc + 1 } })) ∧
     (u.trapact = false → exec (.rep t) s = .next (After s t 0 (trapEntry u 1 0 u.pc 0 0o360_000 0 0)))) ∧
  (∀ (s : State) (t len : Nat) (r : Ret), t < s.tileCount →
     let s' := After s t len r
     (∀ a, (∀ e ∈ r.stores, e.1 ≠ a) → (s'.tile t).load (s'.mem t) a = (s.tile t).load (s.mem t) a) ∧
     (∀ a v, r.stores = [(a, v)] → (s'.tile t).load (s'.mem t) a = v) ∧
     (s'.tile t).checker = (s'.tile t).cpu ∧ (∀ u, u ≠ t → s'.tile u = s.tile u ∧ s'.mem u = s.mem u) ∧ (s'.mem t).code = (s.mem t).code ∧
     s'.work.mortar = s.work.mortar ∧ s'.work.count = s.work.count ∧ s'.rings = s.rings ∧ s'.channels = s.channels ∧
     s'.locks = s.locks ∧ s'.md = s.md ∧ s'.clock = s.clock ∧ s'.watchdog = s.watchdog ∧ s'.pages = s.pages)

/-! ## Windows, slots and bonds -/

/-- R142, R147–R149, R162: a window close whose signatures agree takes six cycles, writes the checkpoint, exchanges the banks and
lets the withheld effect leave; with more left of the other bank than drains during the compare it waits. A tile that is to stop
there stops with its activation open. R146, R148: when the other bank has drained, every read of the tile's data memory gives what
it gave; a close that waited for it proceeds, and the cycles it waited are off the budget too. It follows the model's readings in
log entry 28. It follows the model's readings in log entry 70. -/
def Obligations.WindowsAndBanks : Prop :=
  (∀ (s : State) (t : Nat) (ok : Bool) (a : Activation), t < s.tileCount → (s.tile t).activation = some a → (s.tile t).closeDue = true →
     (s.tile t).signature = (s.tile t).checkSig →
     let closes : Instr := .windowClose t ⟨0, 0, ok⟩ []
     let s0 := s.drainAll t
     let x := s0.tile t
     let cpu : Cpu := { x.cpu with budget := x.cpu.budget - 6 }
     let closed := s0.setTile t { x with
       cpu := cpu, checker := { x.checker with budget := x.checker.budget - 6 }, checkpointHeld := x.held, filling := []
       checkpoint := { cpu := cpu, sblo := (s.mem t).sblo, sbhi := (s.mem t).sbhi, resumeBrk := a.resumeBrk }
       draining := x.filling, signature := 0, checkSig := 0, windowCycles := 0, closeDue := false, closeWaits := false, effect := none }
     (32 < (s.tile t).draining.length → exec closes s = .next (s.setTile t { s.tile t with closeWaits := true })) ∧
     ((s.tile t).draining.length ≤ 32 → a.stopDue = none →
       (x.effect = none → exec closes s = .next closed) ∧
       (∀ e, x.effect = some e → exec closes s = .next (closed.releaseEffect t e))) ∧
     (∀ k, a.stopDue = some k → (s.tile t).draining.length ≤ 32 → x.effect = none →
       ∃ s', exec closes s = .next s' ∧ (s'.tile t).cpu = cpu ∧ (s'.tile t).filling = [] ∧ (s'.tile t).draining = [] ∧
         s'.online.holdDue = (s.online.holdDue || decide (k ≠ .step)) ∧ (s'.tile t).activation = some { a with
           opened := true, stopped := true, stopDue := none, stepsLeft := none, resumeBrk := decide (k = .brk) })) ∧
  (∀ (s : State) (t : Nat), t < s.tileCount →
     let x := s.tile t
     let stall := (x.draining.length - 32 + 7) / 8
     (x.closeWaits = false →
       ∃ s', exec (.bankDrainEnd t) s = .next s' ∧ (s'.tile t).draining = [] ∧ (s'.tile t).filling = x.filling ∧
         (s'.tile t).cpu = x.cpu ∧ ∀ a, (s'.tile t).load (s'.mem t) a = x.load (s.mem t) a) ∧
     (∀ a, x.closeWaits = true → x.activation = some a → a.stopDue = none → x.effect = none →
       ∃ s', exec (.bankDrainEnd t) s = .next s' ∧ (s'.tile t).draining = x.filling ∧ (s'.tile t).filling = [] ∧
         (s'.tile t).closeDue = false ∧ (s'.tile t).cpu = { x.cpu with budget := x.cpu.budget - (6 + stall) } ∧
         (s'.tile t).checkpoint.cpu = (s'.tile t).cpu ∧ ∀ a, (s'.tile t).load (s'.mem t) a = x.load (s.mem t) a))

/-- R60, R67, R111: when END leaves the bond, its held writes are committed and stand for readers from the next tick, words not
held keep what they had, the task's overrun count is 0 and the activation is over. -/
def Obligations.EndCommits : Prop :=
  ∀ (s : State) (t : Nat) (a : Activation), t < s.tileCount → (s.tile t).activation = some a → (s.tile t).closeDue = true →
    (s.tile t).signature = (s.tile t).checkSig → (s.tile t).effect = some .finish → (s.tile t).draining.length ≤ 32 →
    s.md.mode = .run → Tbl.wf none (s.tile t).held = true →
    ∃ s', exec (.windowClose t ⟨0, 0, true⟩ []) s = .next s' ∧ (s'.tile t).activation = none ∧ (s'.tile t).held = [] ∧
      Tbl.get 0 s'.work.overruns a.entry.task = 0 ∧ s'.work.mortar.out = s.work.mortar.out ∧
      s'.work.mortar.input = s.work.mortar.input ∧
      ∀ i, i < 32768 → Tbl.get none s'.work.mortar.outNew i =
        (Tbl.get none (s.tile t).held (2 ^ 18 + i)).orElse fun _ => Tbl.get none s.work.mortar.outNew i

/-- R141, R149, R151–R154: a fault of one core makes the signatures differ; with a reserve bond that passes its entry check the
tile resumes at its checkpoint on the reserve: the discarded window's stores and effect are lost, both bonds' roles change and the
event is counted. R157, R158: the verdict of a bond's test: a failed core retires the bond; a passed test frees it, and the third
transient within 1,000 h retires it. -/
def Obligations.Migration : Prop :=
  (∀ (s : State) (t p old : Nat) (a : Activation) (main checker : Dword), t < s.tileCount → (s.tile t).activation = some a →
     (s.tile t).closeDue = true → s.upsets = [] →
     let x := s.tile t
     let d := t / s.tilesPerDie + 1
     x.signature ^^^ main ≠ x.checkSig ^^^ checker →
     (s.die d).reserve = some p → (s.die d).positionOf (t % s.tilesPerDie) = some old → p ≠ old →
     ∃ s', exec (.windowClose t ⟨main, checker, true⟩ []) s = .next s' ∧ (s'.tile t).cpu = x.checkpoint.cpu ∧
       (s'.tile t).checker = x.checkpoint.cpu ∧ (s'.tile t).held = x.checkpointHeld ∧ (s'.mem t).sblo = x.checkpoint.sblo ∧
       (s'.mem t).sbhi = x.checkpoint.sbhi ∧ (s'.tile t).filling = [] ∧ (s'.tile t).effect = none ∧
       (s'.tile t).activation = some { a with stopDue := none, stepsLeft := a.stepsLeft.map (· + 1), resumeBrk := x.checkpoint.resumeBrk } ∧
       ((s'.die d).bond p).state = .running (t % s.tilesPerDie) ∧ ((s'.die d).bond old).state = .testing ∧
       (s'.die d).reserve = none ∧ (s'.die d).migrations = ((s.die d).migrations + 1) % 2 ^ 36 ∧ s'.md.safeDue = s.md.safeDue) ∧
  (∀ (s : State) (d p : Nat) (main checker : Bool), 1 ≤ d → d ≤ s.dieCount → p ≤ 3 →
     let b := (s.die d).bond p
     let recent := (b.transients ++ [(s.die d).hours]).filter fun h => decide ((s.die d).hours ≤ h + 1000)
     let after (st : BondState) (cause : Nat) : Prop := ∃ s', exec (.bondTestVerdict d p main checker) s = .next s' ∧
       ((s'.die d).bond p).state = st ∧ ((s'.die d).bond p).cause = cause ∧
       (∀ j, j ≠ p → (s'.die d).bond j = (s.die d).bond j) ∧ ∀ e, e ≠ d → s'.die e = s.die e
     b.state = .testing →
       (main = true ∨ checker = true → after .retired ((if main then 1 else 0) + 2 * (if checker then 1 else 0))) ∧
       (main = false → checker = false → b.suspect = false → after .free b.cause) ∧
       (main = false → checker = false → b.suspect = true → recent.length < 3 → after .free b.cause) ∧
       (main = false → checker = false → b.suspect = true → 3 ≤ recent.length → after .retired 4))

/-- R50, R51, R57, R102: a periodic task's slot is dispatched in its tick: 24 cycles of its budget are spent, PC is its entry, g0
is 0, g7 is SBHI + 1, every other register and flag is 0; each slot once in a tick. R59–R61: a budget overrun ends the activation
uncommitted, raises error cause 2 and sets TK_OVR; the third in a row makes Safe due. The program's images stay as they were. -/
def Obligations.SlotsAndBudgets : Prop :=
  (∀ (s : State) (t slot : Nat) (e : SlotEntry), t < s.tileCount → s.md.tasksRun = true → s.md.imageClosed = true →
     (s.tile t).closeDue = false → (s.tile t).activation = none → (∀ d ∈ (s.tile t).slotsDone, d < slot) → s.md.startTick = false →
     (s.mem t).run[slot]? = some e → e.kind = 0 → 0 < e.period → s.work.count % e.period = e.phase →
     ∃ s', exec (.slotDispatch t slot) s = .next s' ∧ (s'.tile t).activation = some { slot := slot, entry := e } ∧
       (s'.tile t).slotsDone = slot :: (s.tile t).slotsDone ∧ (s'.tile t).cpu.pc = BitVec.ofNat 17 e.entry ∧
       (s'.tile t).cpu.budget = e.budget - 24 ∧ (s'.tile t).cpu.fl = {} ∧ (s'.tile t).checkpoint.cpu = (s'.tile t).cpu ∧ (s'.tile t).checker = (s'.tile t).cpu ∧
       (s'.tile t).cpu.reg 7 = BitVec.ofNat 18 ((s.mem t).sbhi.toNat + 1) ∧ (∀ i, i ≠ 7 → (s'.tile t).cpu.reg i = 0) ∧
       (s'.tile t).held = [] ∧ (s'.tile t).filling = [] ∧ s'.work.mortar = s.work.mortar) ∧
  (∀ (s : State) (t : Nat) (a : Activation), t < s.tileCount → (s.tile t).activation = some a → a.stopped = false →
     (s.tile t).cpu.budget = 0 → (s.tile t).effect = none → s.md.mode = .run →
     let n := min 3 (Tbl.get 0 s.work.overruns a.entry.task + 1)
     ∃ s', exec (.budgetOverrun t) s = .next s' ∧ (s'.tile t).activation = none ∧ (s'.tile t).held = [] ∧
       s'.work.mortar = s.work.mortar ∧ s'.work.errNow = s.work.errNow ||| 4 ∧ s'.ovrTile = t ∧ s'.ovrTask = a.entry.task ∧
       s'.ovrConsec = n ∧ s'.ovrValid = true ∧ Tbl.get 0 s'.work.overruns a.entry.task = n ∧
       s'.md.safeDue = (s.md.safeDue || decide (n = 3)))

/-- R135, R162, R192, R193: BRK acts as NOP while breakpoints are not armed, and when the tile resumes from it; in Run with ROLE 1
an armed one closes the window before it and is to stop the tile there; so does a debugger's breakpoint at the PC. Neither moves
the PC. R162, R163, R196, R199: in Hold, STEP runs an open activation for 1–512 retire steps and RUN_TILE freely; ABANDON closes
it; STEP_TICK runs 1–1,000 ticks. A debugger's write reaches both cores and the checkpoint file, or memory. It follows the model's
readings in log entries 67, 58. -/
def Obligations.HoldCommands : Prop :=
  (∀ (s : State) (t i : Nat) (ab : BitVec 6) (w : Word) (a : Activation), Ready s t → (s.tile t).activation = some a →
     let armed := bitOf (s.setupTickOr 0o000_420 1) 1
     let stops (k : StopKind) : Out := .next (s.setTile t { s.tile t with closeDue := true, activation := some { a with stopDue := some k } })
     (armed = false ∨ a.resumeBrk = true → exec (.brk ⟨t, ab⟩) s = .next (After s t 1 { cpu := (s.tile t).cpu })) ∧
     (armed = true → s.md.mode = .run → s.role = 1 → a.resumeBrk = false → exec (.brk ⟨t, ab⟩) s = stops .brk) ∧
     (i < 8 → s.setupOr (0o430 + i) 0 = w → w.getLsbD 17 = true → bitsOf (s.setupOr (0o440 + i) 0) 4 0 = t → s.md.mode = .run →
       s.role = 1 → (s.tile t).cpu.pc = w.setWidth 17 → exec (.debugBreakpoint t (w.setWidth 17)) s = stops .debug)) ∧
  (∀ (s s1 : State) (q q1 : Req) (a : Activation) (t : Nat) (v : Word) (x : Addr) (r : Reg),
     let k := ticketOf 0 q
     let d := q1.desc
     let i := d.a0.toNat
     let o := s1.online
     let refused : Out := .next (s1.complete k { status := 2 })
     let resumed (n : Option Nat) : State :=
       { s1.setTile i { s1.tile i with activation := some { a with stopped := false, stepsLeft := n } } with
         online := { o with stepping := o.stepping ++ [(i, k)] } }
     let held : Prop := s1.md.mode = .hold ∧ i < s1.tileCount ∧ (s1.tile i).activation = some a ∧ a.stopped = true
     let settled : Prop := (s1.tile i).closeDue = false
     (Taken s 0 0o052 2 q s1 q1 → settled → (∀ e ∈ o.stepping, e.1 ≠ i) →
       (held → exec (.step q) s = .next (resumed (some (max 1 (min 512 d.a1.toNat))))) ∧
       (s1.md.mode ≠ .hold ∨ s1.tileCount ≤ i ∨ (s1.tile i).activation = none → exec (.step q) s = refused)) ∧
     (Taken s 0 0o053 2 q s1 q1 → settled → (∀ e ∈ o.stepping, e.1 ≠ i) → held → exec (.runTile q) s = .next (resumed none)) ∧
     (Taken s 0 0o054 2 q s1 q1 → settled →
       (s1.md.mode = .hold → i < s1.tileCount → (s1.tile i).activation = some a → a.opened = true → ∃ s2 : State, exec (.abandon q) s = .next (s2.complete k {}) ∧ (s2.tile i).activation = none ∧ (s2.tile i).held = [] ∧
         s2.work.overruns = s1.work.overruns ∧ s2.work.mortar.outNew = s1.work.mortar.outNew ∧ s2.work.mortar.out = s1.work.mortar.out) ∧
       (s1.md.mode ≠ .hold → exec (.abandon q) s = refused)) ∧
     (Taken s 0 0o055 2 q s1 q1 → o.stepTickTicket = none →
       (s1.md.mode = .hold → s1.anyOpen = false →
         exec (.stepTick q) s = .next { s1 with online := { o with stepTicks := max 1 (min 1000 i), stepTickTicket := some k } }) ∧
       (s1.md.mode ≠ .hold → exec (.stepTick q) s = refused)) ∧
     (s.debugOpen.isSome = true → t < s.tileCount → (s.tile t).closeDue = false →
       (∀ b, (s.tile t).activation = some b → b.stopped = true →
         let y := s.tile t
         let both (f : Cpu → Cpu) : State := s.setTile t { y with
           cpu := f y.cpu, checker := f y.checker, checkpoint := { y.checkpoint with cpu := f y.checkpoint.cpu } }
         exec (.debugRegisterWrite t (.g r) v) s = .next (both fun c => c.setReg r v) ∧
         exec (.debugRegisterWrite t .pc v) s = .next (both fun c => { c with pc := v.setWidth 17 }) ∧
         exec (.debugRegisterWrite t .ct v) s = .next (both fun c => { c with ct := v }) ∧
         exec (.debugRegisterWrite t .rc v) s = .next (both fun c => { c with rc := v }) ∧
         exec (.debugRegisterWrite t .fl v) s = .next (both fun c => { c with
           fl := ⟨v.getLsbD 0, v.getLsbD 1, v.getLsbD 2, v.getLsbD 3, v.getLsbD 4⟩ })) ∧
       ∃ s', exec (.debugMemoryWrite t false x v) s = .next s' ∧ Tbl.get 0 (s'.mem t).data x.toNat = v ∧
         (s'.mem t).code = (s.mem t).code ∧ s'.tiles = s.tiles ∧
         ∃ s2 : State, exec (.debugMemoryWrite t true x v) s = .next s2 ∧ Tbl.get 0 (s2.mem t).code x.toNat = v ∧
           (s2.mem t).data = (s.mem t).data ∧ s2.tiles = s.tiles))

/-! ## Rings, mailboxes and locks -/

/-- R266, R274: EN = 1 on a free ring makes the writing host its owner with all four indices 0, but never the host link on a
foreman's ring; another master's write is ignored and counted; the owner's EN = 0 on an idle ring frees it and ends its binding.
R274, R278, R281: the new owner reads the reclaimed mark once, together with its acquisition. It follows the model's readings in
log entry 96. -/
def Obligations.RingOwnership : Prop :=
  (∀ (s : State) (m r : Nat), r ≤ 8 → s.reaches m = true →
     let g := s.ring r
     let counted : Out := .next { s with ignored := (s.ignored + 1) % 2 ^ 18 }
     (g.owner = noOwner → m ≤ 1 → ¬ (m = 1 ∧ s.foremanRing r = true) → exec (.ringEnable m r) s =
       .next (s.setRing r { g with en := true, owner := m, cpi := 0, cci := 0, qpi := 0, qci := 0, completions := [] })) ∧
     (g.owner = noOwner → 1 < m ∨ (m = 1 ∧ s.foremanRing r = true) → m ≠ noOwner → exec (.ringEnable m r) s = counted) ∧
     (g.owner ≠ m → g.owner ≠ noOwner → exec (.ringEnable m r) s = counted ∧ ∀ l, exec (.ringDisable m r l) s = counted) ∧
     (g.owner = m → g.busy = false → g.queue = [] → g.flight = [] → g.cpi = g.cci →
       ∃ s', exec (.ringDisable m r []) s = .next s' ∧ (s'.ring r).en = false ∧ (s'.ring r).owner = noOwner ∧
         (s'.ring r).orph = g.orph ∧ s'.ringCred r = {} ∧ ∀ k, k ≠ r → s'.ring k = s.ring k ∧ s'.ringCred k = s.ringCred k)) ∧
  (∀ (s : State) (m r : Nat), r ≤ 8 → s.reaches m = true →
     let g := s.ring r
     let w : Word := BitVec.ofNat 18 ((if g.en then 2 ^ 17 else 0) + (if g.busy then 2 ^ 15 else 0) + (if g.rclm then 2 ^ 14 else 0) +
       g.log2s * 2 ^ 8 + g.owner)
     (g.owner = m → exec (.rclmRead m r) s = .next ({ s with lastRead := [w] }.setRing r { g with rclm := false })) ∧
     (g.owner ≠ m → exec (.rclmRead m r) s = .next { s with lastRead := [w] }))

/-- R278: the doorbells, clamped silently. R277, R278: no doorbell ever posts more than SIZE descriptors beyond the completions
consumed, or consumes a completion that was not written: the credits stay within bounds, whatever is written and whoever writes.
-/
def Obligations.CreditsStayInBounds : Prop :=
  (∀ (s : State) (m r : Nat) (v : Word), r ≤ 8 → s.reaches m = true →
     let g := s.ring r
     let size := 2 ^ g.log2s
     let sub (a b : Nat) : Nat := (a + 65536 - b) % 65536
     let n := v.toNat % 65536
     let room := min (sub n g.qci) size
     let done := min (sub n g.qci) (sub g.qpi g.qci)
     g.owner = m → g.qci < 65536 → g.cpi < 65536 →
       (g.busy = false → room < sub g.cpi g.qci → exec (.commandDoorbell m r v) s = .next (s.setRing r g)) ∧
       (g.busy = false → sub g.cpi g.qci ≤ room →
         exec (.commandDoorbell m r v) s = .next (s.setRing r { g with cpi := (g.qci + room) % 65536 })) ∧
       (g.busy = true → exec (.commandDoorbell m r v) s = .next s) ∧
       ∃ l, exec (.completionDoorbell m r v) s = .next (s.setRing r { g with qci := (g.qci + done) % 65536, completions := l })) ∧
  (∀ (s : State) (m r : Nat) (v : Word) (k : Nat),
     let sub (a b : Nat) : Nat := (a + 65536 - b) % 65536
     let bounded (s : State) : Prop := ∀ k, (s.ring k).log2s ≤ 12 ∧ (s.ring k).cpi < 65536 ∧ (s.ring k).qci < 65536 ∧
       (s.ring k).qpi < 65536 ∧ sub (s.ring k).cpi (s.ring k).qci ≤ 2 ^ (s.ring k).log2s ∧
       sub (s.ring k).qpi (s.ring k).qci ≤ sub (s.ring k).cpi (s.ring k).qci
     bounded s →
       (∃ s', exec (.commandDoorbell m r v) s = .next s' ∧ bounded s') ∧
       (∃ s', exec (.completionDoorbell m r v) s = .next s' ∧ bounded s' ∧
         sub (s'.ring k).cpi (s'.ring k).qci ≤ sub (s.ring k).cpi (s.ring k).qci))

/-- R268, R276, R277: the next posted descriptor of an enabled ring joins its engine's queue in ring order; one whose CODE the
engine does not define completes REFUSED with CODE 0. Fetching stops while the CAN channel that the next descriptor names has no
room (R320). R279, R280: RESET sets RBUSY and aborts what has not completed; when nothing is left to complete, CCI is set equal to
CPI and RBUSY clears. EN and the owner stay. It follows the model's readings in log entry 35. -/
def Obligations.FetchAndReset : Prop :=
  (∀ (s : State) (r : Nat) (d : Desc), r ≤ 8 →
     let g := s.ring r
     let slot := g.cci % 2 ^ g.log2s
     let cci := (g.cci + 1) % 65536
     let full : Prop := r = 2 ∧ d.code = 0o120 ∧ 16 ≤ (s.can (bitsOf d.a0 2 0)).pending.length
     (full → exec (.descriptorFetch r d) s = .next s) ∧
     (g.en = true → g.busy = false → g.cpi ≠ g.cci → g.cpi < 65536 → g.cci < 65536 → g.queue.length < 8 → ¬ full →
       (d.code.toNat ∈ definedCodes r →
         exec (.descriptorFetch r d) s = .next (s.setRing r { g with cci := cci, queue := g.queue ++ [⟨.ring slot, d, []⟩] })) ∧
       (d.code.toNat ∉ definedCodes r → g.owner = 1 → g.flight = [] →
         ∃ s', exec (.descriptorFetch r d) s = .next s' ∧ (s'.ring r).cci = cci ∧ (s'.ring r).queue = g.queue ∧
           (s'.ring r).flight = [] ∧ (s'.ring r).qpi = (g.qpi + 1) % 65536 ∧ r ∈ s'.msix ∧
           (s'.ring r).completions = g.completions ++ [⟨slot, d.tag, 2, 0, 0, 0, []⟩]))) ∧
  (∀ (s : State) (m r : Nat) (tags : List Word), r ≤ 8 → s.reaches m = true →
     let g := s.ring r
     (g.owner = m → g.busy = false → g.cpi = g.cci → g.flight = [] → s.cans = [] →
       ∀ slot d ws, g.queue = [⟨.ring slot, d, ws⟩] → m ≠ noOwner →
         ∃ s', exec (.ringReset m r tags) s = .next s' ∧ (s'.ring r).busy = true ∧ (s'.ring r).queue = [] ∧ (s'.ring r).flight = [] ∧
           (s'.ring r).completions = g.completions ++ [⟨slot, d.tag, 4, 0, 0, 0, []⟩] ∧ (s'.ring r).owner = m) ∧
     (g.busy = true → g.flight = [] → g.disabling = false →
       ∃ s', exec (.ringResetEnd r) s = .next s' ∧ (s'.ring r).busy = false ∧ (s'.ring r).cci = g.cpi ∧ (s'.ring r).cpi = g.cpi ∧
         (s'.ring r).owner = g.owner ∧ (s'.ring r).en = g.en))

/-- R276, R279, R280: every descriptor receives exactly one completion. It goes to its ring's next completion slot and signals the
owner, to the session that posted it, or into a count of the ring for a tile's post; a second one is not written. -/
def Obligations.OneCompletion : Prop :=
  ∀ (s : State) (k : Ticket) (rep : Reply),
    let g := s.ring k.ring
    let n := rep.len.getD rep.data.length
    let taken := s.setRing k.ring { g with flight := g.flight.erase k }
    (k ∉ g.flight → s.complete k rep = s) ∧
    (k ∈ g.flight → ∀ slot, k.origin = .ring slot → g.owner = 1 →
      let c : Completion := ⟨slot, k.tag, rep.status, rep.code, rep.detail, n, rep.data⟩
      let s' := s.complete k rep
      (s'.ring k.ring).completions = g.completions ++ [c] ∧ (s'.ring k.ring).qpi = (g.qpi + 1) % 65536 ∧
        (s'.ring k.ring).flight = g.flight.erase k ∧ k.ring ∈ s'.msix) ∧
    (k ∈ g.flight → ∀ id, k.origin = .session id →
      s.complete k rep =
        { taken with sessionOut := s.sessionOut ++ [(id, ⟨0, k.tag, rep.status, rep.code, rep.detail, n, rep.data⟩)] }) ∧
    (k ∈ g.flight → ∀ t c, k.origin = .tile t c → rep.status = 0 →
      ((s.complete k rep).ring k.ring).tdone = (g.tdone + 1) % 2 ^ 18)

/-- R464: a command that runs with less than its right completes DENIED and changes nothing else but the record of it. It follows
the model's readings in log entries 33, 34. -/
def Obligations.RightsChecked : Prop :=
  ∀ (s s1 : State) (q q1 : Req) (g : Nat) (m : Manifest) (fp : Option Nat) (ok : Bool) (meas : List Nat),
    let denied (r code right : Nat) (c : Instr) : Prop := s.takeReq r code q = some (s1, q1) → s1.rightOf r q.origin < right →
      exec c s = .next ((s1.complete (ticketOf r q) { status := 1 }).credEvent 0o002_201
        (match q.origin with | .session _ => 15 | _ => r) 2 (s1.credOf r q.origin))
    denied 0 0o040 2 (.activate q) ∧ denied 0 0o041 2 (.cancel q) ∧ denied 0 0o042 2 (.load q) ∧ denied 0 0o044 2 (.forceSet q) ∧
    denied 0 0o045 2 (.forceClear q) ∧ denied 0 0o046 2 (.forceClearAll q) ∧ denied 0 0o047 1 (.forceList q) ∧
    denied 0 0o050 1 (.view q) ∧ denied 0 0o052 2 (.step q) ∧ denied 0 0o053 2 (.runTile q) ∧ denied 0 0o054 2 (.abandon q) ∧
    denied 0 0o055 2 (.stepTick q) ∧ denied 0 0o070 1 (.healthGet q) ∧ denied 0 0o100 2 (.mbBindSet q) ∧
    denied 0 0o140 2 (.safeParamSet q) ∧ denied 0 0o141 2 (.safeConfirm q) ∧ denied 0 0o142 1 (.safeAck q) ∧
    denied 0 0o143 1 (.safeParamGet q) ∧ denied 0 0o150 1 (.fieldStatus q meas) ∧ denied 0 0o223 2 (.credRevoke q) ∧
    denied 0 0o224 2 (.anchorSet q fp) ∧ denied 0 0o226 3 (.dbgOpen q) ∧ denied 0 0o227 1 (.setRetainedGet q) ∧
    denied 0 0o230 2 (.setRetainedClear q) ∧ denied 1 0o061 2 (.substSet q) ∧ denied 1 0o062 1 (.stationStatus q) ∧
    (bitsOf q.desc.a1 5 0 = g → denied 1 0o060 (if g = 3 ∨ g = 4 then 2 else 1) (.stationService q)) ∧
    ((s.can (bitsOf q.desc.a0 2 0)).pending.length < 16 → denied 2 0o120 1 (.canTx q)) ∧ denied 2 0o121 1 (.canAbort q) ∧
    denied 2 0o122 1 (.canRecover q) ∧ denied 3 0o130 1 (.serTx q) ∧ denied 3 0o131 1 (.serAbort q) ∧ denied 4 0o170 1 (.rcRead q) ∧
    denied 4 0o171 1 (.rcLog q) ∧ denied 4 0o172 1 (.rcExport q) ∧ denied 5 0o200 1 (.psRead q) ∧ denied 5 0o201 2 (.psWrite q) ∧
    denied 5 0o202 1 (.pbRead q) ∧ denied 5 0o203 2 (.pbWrite q) ∧ denied 5 0o204 2 (.scDefine q) ∧ denied 5 0o205 1 (.scInc q) ∧
    denied 5 0o206 1 (.scRead q) ∧ denied 6 0o160 1 (.mtRead q) ∧ denied 6 0o161 1 (.mtLogRead q) ∧ denied 6 0o162 2 (.mtSet q) ∧
    denied 7 0o210 2 (.updBegin q m) ∧ denied 7 0o211 2 (.updBlock q ok) ∧ denied 7 0o212 2 (.updSchedule q) ∧
    denied 7 0o213 2 (.updCancel q) ∧ denied 8 0o110 1 (.tnMdSend q) ∧ denied 8 0o111 1 (.tnTopoGet q) ∧ denied 8 0o112 2 (.tnTableSet q)

/-- R284, R287: SEND by the named sender while GO is 0 sets GO, counts SEQ and signals the receiver; messages that cross are
marked in both directions. A SEND while GO is 1, or by another master, is ignored and counted. -/
def Obligations.MailboxSends : Prop :=
  ∀ (s : State) (m n : Nat) (y : Bool), n ≤ 31 → s.reaches m = true →
    let c := s.channel n
    let d := c.dir y
    let o := c.dir !y
    (c.bind.usable s.tileCount = true → c.sender y = m → d.go = false →
      ∃ s', exec (.mailboxSend m n y) s = .next s' ∧ ((s'.channel n).dir y).go = true ∧
        ((s'.channel n).dir y).seq = (d.seq + 1) % 512 ∧ ((s'.channel n).dir y).msg = d.msg ∧
        ((s'.channel n).dir !y).go = o.go ∧ ((s'.channel n).dir !y).msg = o.msg ∧ (s'.channel n).bind = c.bind ∧
        (o.go = true → ((s'.channel n).dir y).crossed = true ∧ ((s'.channel n).dir !y).crossed = true) ∧
        (c.receiver y = 1 → 16 + n ∈ s'.msix) ∧ (c.receiver y = 0 → 16 + n ∈ s'.foremanEvents) ∧
        (∀ k, k ≠ n → s'.channel k = s.channel k) ∧ s'.rings = s.rings ∧ s'.locks = s.locks) ∧
    (c.bind.usable s.tileCount = false ∨ c.sender y ≠ m ∨ d.go = true →
      exec (.mailboxSend m n y) s = .next { s with ignored := (s.ignored + 1) % 2 ^ 18 })

/-- R284, R286: ACK by the named receiver takes the message; WD by the sender withdraws it and reports the outcome, at once but
for the arch partner; an orphan's WD is ignored. An ACK of the same cycle wins. R272, R288: reads with an effect. Only the asking
master consumes a withdrawal result; the sender reads its reclaimed mark once after its acquiring SEND. R267, R282, R295: a
binding is written to the settings copy, in effect at the next Start; channel 31 is the island's. The host link trains to x1 or
x2. It follows the model's readings in log entries 39, 40. It follows the model's readings in log entry 37. -/
def Obligations.MailboxTakenAndRead : Prop :=
  (∀ (s : State) (m n r : Nat) (y : Bool), n ≤ 31 → s.reaches m = true →
     let c := s.channel n
     let d := c.dir y
     c.bind.usable s.tileCount = true →
       (c.receiver y = m → d.go = true →
         ∃ s', exec (.mailboxAck m n y) s = .next s' ∧ (s'.channel n).dir y = { d with go := false, taken := true, lastTaken := true } ∧
           (s'.channel n).dir (!y) = c.dir (!y) ∧ (c.sender y = 1 → 16 + n ∈ s'.msix) ∧ s'.rings = s.rings) ∧
       (c.sender y = m → d.go = true → d.orphan = true → exec (.mailboxWithdraw m n ⟨y, none⟩) s = .next s) ∧
       (c.sender y = m → ¬ (d.go = true ∧ d.orphan = true) →
         exec (.mailboxWithdraw m n ⟨y, none⟩) s = .next (s.setChannel n (c.setDir y { d with
           go := false, wresReady := decide (c.receiver y ≠ 4), wresPending := decide (c.receiver y = 4), wresStale := false
           wresOutcome := if d.go then 1 else if d.lastTaken then 2 else 3, wresAsker := m }))) ∧
       (c.sender y = m → c.receiver y = r → s.reaches r = true → d.go = true →
         ∃ s', exec (.mailboxWithdraw m n ⟨y, some r⟩) s = .next s' ∧ ((s'.channel n).dir y).go = false ∧
           ((s'.channel n).dir y).taken = true ∧ ((s'.channel n).dir y).wresOutcome = 2 ∧ ((s'.channel n).dir y).wresAsker = m) ∧
       (d.wresPending = true → exec (.withdrawResult n y) s =
         .next (s.setChannel n (c.setDir y { d with wresReady := true, wresPending := false, wresStale := false })))) ∧
  (∀ (s : State) (m n : Nat) (y : Bool), n ≤ 31 → s.reaches m = true →
     let c := s.channel n
     let d := c.dir y
     let said (w : Nat) : State := { s with lastRead := [BitVec.ofNat 18 w] }
     let b (x : Bool) (i : Nat) : Nat := if x then 2 ^ i else 0
     let res := 2 ^ 17 + b d.wresStale 16 + d.wresOutcome
     let ctl := b d.go 17 + b d.taken 13 + b d.crossed 12 + b d.orphan 11 + b d.rclmShow 10 + d.seq
     (d.wresReady = true → d.wresAsker = m →
       exec (.withdrawResultRead m n y) s = .next ((said res).setChannel n (c.setDir y { d with wresStale := true }))) ∧
     (d.wresReady = true → d.wresAsker ≠ m → exec (.withdrawResultRead m n y) s = .next (said res)) ∧
     (d.wresReady = false → exec (.withdrawResultRead m n y) s = .next (said 0)) ∧
     (c.sender y = m → d.rclmShow = true →
       exec (.mailboxRclmRead m n y) s = .next ((said ctl).setChannel n (c.setDir y { d with rclm := false, rclmShow := false }))) ∧
     (c.sender y ≠ m ∨ d.rclmShow = false → exec (.mailboxRclmRead m n y) s = .next (said ctl))) ∧
  (∀ (s s1 : State) (q q1 : Req) (width : Nat) (gen2 : Bool),
     let k := ticketOf 0 q
     let d := q1.desc
     let c := min 31 d.a0.toNat
     let b : Binding := ⟨bitsOf d.a1 17 12, bitsOf d.a1 11 6, d.a1.getLsbD 5, d.a1.getLsbD 4, bitsOf d.a2 14 0, bitsOf d.a3 14 0⟩
     (Taken s 0 0o100 2 q s1 q1 →
       (c ≠ 31 → s1.bindingFits c b = true → exec (.mbBindSet q) s =
         .next (((s1.setChannel c { s1.channel c with settings := b }).changed (s1.credOf 0 q.origin) 0o100 c d.a1.toNat).complete k {})) ∧
       (c ≠ 31 → s1.bindingFits c b = false → exec (.mbBindSet q) s = .next (s1.complete k { status := 2, code := 8 })) ∧
       (c = 31 → exec (.mbBindSet q) s = .next (s1.complete k { status := 2 }))) ∧
     (s.md.mode.powered = true → ∃ s', exec (.hostLinkUp width gen2) s = .next s' ∧ s'.hostLink = ⟨min 2 width, gen2, true⟩ ∧
       63 ∈ s'.msix ∧ s'.rings = s.rings ∧ s'.md = s.md))

/-- R290–R293: of the masters that read a free lock in one arbitration cycle the lowest identity acquires it, with the reclaimed
mark; each other reads GOT 0, HELD 1 and the winner. A held lock changes for no reader. Its owner's write releases it, to a queued
tile claim first; another master's write is ignored and counted. -/
def Obligations.LocksArbitrate : Prop :=
  ∀ (s : State) (k m : Nat) (readers : List Nat), k ≤ 63 → m < noOwner → m ∈ readers → (∀ x ∈ readers, m ≤ x) →
    (∀ x ∈ readers, s.reaches x = true ∨ x = 2) →
    let l := s.lock k
    let b (x : Bool) (i : Nat) : Nat := if x then 2 ^ i else 0
    let queued := b (decide (l.claims ≠ [])) 14
    (l.owner = noOwner →
      let won : Word := BitVec.ofNat 18 (2 ^ 17 + 2 ^ 16 + b l.rclm 15 + queued + (if l.rclm then l.prev * 64 else 0) + m)
      let lost : Word := BitVec.ofNat 18 (2 ^ 16 + queued + m)
      exec (.lockRead k readers) s = .next { s.setLock k { l with owner := m, rclm := false, prev := 0 } with
        lastRead := readers.map fun x => if x = m then won else lost }) ∧
    (l.owner ≠ noOwner →
      let held : Word := BitVec.ofNat 18 (2 ^ 16 + b l.rclm 15 + queued + (if l.rclm then l.prev * 64 else 0) + l.owner)
      exec (.lockRead k readers) s = .next { s with lastRead := readers.map fun _ => held }) ∧
    (l.owner = m → l.claims = [] → exec (.lockWrite m k) s = .next (s.setLock k { l with owner := noOwner })) ∧
    (l.owner = m → ∀ t ts, l.claims = t :: ts →
      exec (.lockWrite m k) s = .next (s.setLock k { l with owner := t + 8, claims := ts })) ∧
    (l.owner ≠ m → exec (.lockWrite m k) s = .next { s with ignored := (s.ignored + 1) % 2 ^ 18 })

/-- R165, R166, R274, R288, R293, R417, R441: a restart of the foreman, a link reset and the debug port's reset revoke at once
what each holds: locks become free with the mark, pending messages stay as orphans, rings become free, and the identity owns
nothing. It follows the model's readings in log entry 40. -/
def Obligations.Revocation : Prop :=
  ∀ (s : State),
    let gone (s s' : State) (id : Nat) : Prop :=
      (∀ k, (s'.lock k).owner ≠ id) ∧
      (∀ k, (s.lock k).owner = id → (s.lock k).claims = [] →
        s'.lock k = { s.lock k with owner := noOwner, rclm := true, prev := id }) ∧
      (∀ k, (s.lock k).owner ≠ id → s'.lock k = s.lock k) ∧
      (∀ r, r ≤ 8 → (s'.ring r).owner ≠ id) ∧
      (∀ r, r ≤ 8 → (s.ring r).owner = id → (s'.ring r).en = false ∧ (s'.ring r).rclm = true ∧ (s'.ring r).prev = id) ∧
      (∀ c, ((s.channel c).bind.x = id → (s.channel c).dirX.go = true →
        ((s'.channel c).dirX).orphan = true ∧ ((s'.channel c).dirX).go = true))
    Tbl.wf {} s.locks = true → Tbl.wf {} s.channels = true →
      (∃ s', exec .foremanRestart s = .next s' ∧ gone s s' 0) ∧
      (∃ s', exec .debugPortReset s = .next s' ∧ gone s s' 3 ∧ s'.debugOpen = none) ∧
      (s.md.mode.powered = true → ∃ s', exec .hostLinkReset s = .next s' ∧ gone s s' 1 ∧ s'.hostLink.up = false)

/-! ## Registers, clock and watchdog -/

/-- R9, R42, R43, R45: the tick period's low word is staged; the high word commits both, clamped to 250–1,000,000 µs and under
LOCK to the largest divisor of one second not above it; only in Stop and with installer rights, else nothing of the set-up
changes. The tick in progress keeps its period. It follows the model's readings in log entry 23. -/
def Obligations.PeriodCommits : Prop :=
  ∀ (s : State) (m : Nat) (id : Option Nat) (v : Word), s.reaches m = true →
    let right := (s.writer m id).right
    let t := s.work.setup
    let asked := (s.perStaged.getD (BitVec.ofNat 18 t.period)).toNat + 2 ^ 18 * (v.toNat % 4)
    let p := max 250 (min 1000000 asked)
    let told (i : Nat) (s : State) : State := s.changed (s.writer m id).cred i v.toNat m
    (s.md.mode = .stop → 2 ≤ right → exec (.tkPer0Write m id v) s = .next (told 0o000_200 { s with perStaged := some v })) ∧
    (s.md.mode = .stop → 2 ≤ right →
      ∃ q, exec (.tkPer1Write m id v) s =
          .next (told 0o000_201 { s with work := { s.work with setup := { t with period := q } }, perStaged := none }) ∧
        (t.lock = false → q = p) ∧
        (t.lock = true → 1000000 % q = 0 ∧ q ≤ p ∧ ∀ d, d ≤ p → 1000000 % d = 0 → d ≤ q)) ∧
    (s.md.mode ≠ .stop ∨ right < 2 →
      ∃ a b, exec (.tkPer0Write m id v) s = .next a ∧ exec (.tkPer1Write m id v) s = .next b ∧
        a.work = s.work ∧ a.perStaged = s.perStaged ∧ b.work = s.work ∧ b.perStaged = s.perStaged ∧
        (m = 1 → a.ignored = (s.ignored + 1) % 2 ^ 18))

/-- R506: a read of a low word answers it live and latches the words that belong to it for the reading master: every later read by
that master, whatever the machine has become, returns the latched word; no other master's reads and nothing else change. R24, R44,
R437: what the latched low words read live: the tick number, the SEQ of the recorder, the epoch. It follows the model's readings
in log entry 21. -/
def Obligations.LatchedReads : Prop :=
  (∀ (s : State) (m : Nat), m < 4 →
     let latches (c : Instr) (low : Nat) (high : List Nat) : Prop := s.reachesReg m low = true →
       ∃ s', exec c s = .next s' ∧ s' = { s with lastRead := [s.liveReg m 0 low], latches := s'.latches } ∧
         (∀ i ∈ high, ∀ (later : State) (right : Nat), later.latches = s'.latches → later.reachesReg m i = true →
           later.readReg m right i = s.liveReg m 0 i) ∧
         ∀ other right i, other < 4 → other ≠ m → i < 2 ^ 18 → s'.readReg other right i = s.readReg other right i
     latches (.tkNum0Read m) 0o000_206 [0o000_207, 0o000_210] ∧ latches (.bdMig0Read m) 0o000_301 [0o000_302] ∧
     latches (.ocPrg0Read m) 0o000_403 [0o000_404] ∧ latches (.arEpoch0Read m) 0o000_602 [0o000_603] ∧
     latches (.sfChk0Read m) 0o012_003 [0o012_004] ∧ latches (.sfChks0Read m) 0o012_005 [0o012_006] ∧
     latches (.wmPt0Read m) 0o013_400 [0o013_401] ∧ latches (.rcSeq0Read m) 0o013_411 [0o013_412] ∧
     latches (.rcOvw0Read m) 0o013_413 [0o013_414] ∧ latches (.upAt0Read m) 0o014_401 [0o014_402]) ∧
  (∀ (s : State) (m : Nat), s.reaches m = true →
     let low (n : Nat) : Word := BitVec.ofNat 18 n
     let tells (c : Instr) (w : Word) : Prop := ∃ s', exec c s = .next s' ∧ s'.lastRead = [w]
     tells (.tkNum0Read m) (low (s.work.count % 2 ^ 36)) ∧ tells (.rcSeq0Read m) (low s.recorder.seq) ∧
     tells (.arEpoch0Read m) (low s.arch.epoch) ∧ tells (.ocPrg0Read m) (low s.work.program.id))

/-- R9, R13, R16, R17, R267, R505, R506, R508: a write of the host's 32-bit slot ignores bits 31:18; one to a read-only register
or a reserved index changes nothing; a set-up register of Stop keeps what an installer writes, clamped, and records it, and
refuses others, counting the host link's. An access of another form than a single aligned DWORD is ignored and counted. Of writes
in one cycle the lower identity's applies first; reads of that cycle come before them. It follows the model's readings in log
entries 20, 22. It follows the model's readings in log entry 70. -/
def Obligations.RegisterWrites : Prop :=
  ∀ (s : State) (m m2 : Nat) (id id2 : Option Nat) (k i : Nat) (x x2 : BitVec 32) (reg reg2 : RegAddr), k < 64 → s.reaches m = true →
    let v : Word := x.setWidth 18
    let right := (s.writer m id).right
    let bound : Word := BitVec.ofNat 18 (2 ^ 17 * (v.toNat / 2 ^ 17) + max 3 (v.toNat % 2 ^ 8))
    let write (i : Nat) : Instr := .registerWrite m id ⟨.index i, x⟩ ⟨[], []⟩
    exec (write 0o000_206) s = .next s ∧ exec (write 0o000_100) s = .next s ∧ exec (write (0o000_104 + 1)) s = .next s ∧
    (s.md.mode = .stop → 2 ≤ right → exec (write (0o001_300 + k)) s =
      .next ((s.putSetup (0o001_300 + k) bound).changed (s.writer m id).cred (0o001_300 + k) bound.toNat m)) ∧
    (right < 2 → exec (write (0o001_300 + k)) s = .next (if m = 1 then { s with ignored := (s.ignored + 1) % 2 ^ 18 } else s)) ∧
    exec (.registerWrite m id ⟨.host (4 * i) 1 true, x⟩ ⟨[], []⟩) s = exec (write i) s ∧
    (∀ offset dwords allBytes, offset % 4 ≠ 0 ∨ dwords ≠ 1 ∨ allBytes = false →
      exec (.registerWrite 1 none ⟨.host offset dwords allBytes, x⟩ ⟨[], []⟩) s = .next { s with ignored := (s.ignored + 1) % 2 ^ 18 }) ∧
    (m < m2 → ∃ s', exec (.registerWrite m id ⟨reg, x⟩ ⟨[], []⟩) s = .next s' ∧
      exec (.registerWrite m2 id2 ⟨reg2, x2⟩ ⟨[], [⟨m, id, ⟨reg, x⟩⟩]⟩) s = exec (.registerWrite m2 id2 ⟨reg2, x2⟩ ⟨[], []⟩) s') ∧
    exec (.registerWrite m2 id2 ⟨reg2, x2⟩ ⟨[⟨m, id, .index i⟩], []⟩) s =
      exec (.registerWrite m2 id2 ⟨reg2, x2⟩ ⟨[], []⟩) { s with lastRead := [s.readReg m right i] }

/-- R437: days from 2000-01-01, counted year by year and month by month. -/
def Obligations.CalendarCounts : Prop :=
  ∀ y m d : Nat, 2000 ≤ y → y ≤ 2399 → 1 ≤ m → m ≤ 12 → 1 ≤ d →
    let leap (y : Nat) : Bool := y % 4 = 0 ∧ y ≠ 2100 ∧ y ≠ 2200 ∧ y ≠ 2300
    let year (i : Nat) : Nat := if leap (2000 + i) then 366 else 365
    let month (i : Nat) : Nat := if i = 1 then (if leap y then 29 else 28) else if i = 3 ∨ i = 5 ∨ i = 8 ∨ i = 10 then 30 else 31
    daysOf y m d + 1 = ((List.range (y - 2000)).map year).sum + ((List.range (m - 1)).map month).sum + d

/-- R143, R434, R437, R439, R444, R449: as time passes, the clock counts 2⁻¹⁵ s in every mode but Off, with the counts that
RTC_CAL inserts or deletes, and stays at the last second of its range with WRAPEND; a slew moves it by at most 500 ppm; the
watchdog counts periods of 1 µs while it runs and has not expired; memory errors that arose stand. R440: frost and thaw: a read of
RTC_SUB copies the live values for the reading master; RTC_DATE returns them and thaws; a frost not thawed in 1 ms thaws by
itself. No other master's shadow changes, and the clock does not stop. It follows the model's readings in log entry 14. -/
def Obligations.TimePasses : Prop :=
  (∀ (s : State) (e : Elapsed), s.md.mode.powered = true → s.clock.sub % 8 = 0 →
     let s' := s.elapse e
     let cal : Int := (s.clock.calPart + (e.counts : Int) * s.clock.cal).tdiv 10000000
     let now := s.clock.sec * 2 ^ 15 + s.clock.sub / 8 + ((e.counts : Int) + cal).toNat
     (s.clock.slew = 0 → now < 146097 * 86400 * 2 ^ 15 →
       s'.clock.sec * 2 ^ 15 + s'.clock.sub / 8 = now ∧ s'.clock.wrapend = s.clock.wrapend) ∧
     (s.clock.slew = 0 → 146097 * 86400 * 2 ^ 15 ≤ now → s'.clock.sec = 146097 * 86400 - 1 ∧ s'.clock.wrapend = true) ∧
     s'.clock.slew.natAbs ≤ s.clock.slew.natAbs ∧
     s.clock.slew.natAbs ≤ s'.clock.slew.natAbs + 8 * ((s.clock.slewPart + e.counts * 500) / 1000000) ∧
     (s.train.tstate ≠ 2 → s'.clock.slew = s.clock.slew) ∧
     s'.clock.sub % 8 = 0 ∧ s'.clock.sub < 2 ^ 18 ∧
     s'.watchdog.c = (if s.watchdog.run = true ∧ s.watchdog.expired = false then s.watchdog.c + e.us else s.watchdog.c) ∧
     s'.md = s.md ∧ s'.work = s.work ∧ s'.clock.alarms = s.clock.alarms ∧ s'.clock.backup = s.clock.backup ∧ s'.upsets = s.upsets ++ e.upsets) ∧
  (∀ (s : State) (m : Nat) (el : Elapsed), m < 4 → s.reaches m = true →
     let s0 := s.elapse el
     let c := s0.clock
     let frozen : Shadow := ⟨c.sub, c.sec, timeWord c.sec, dateWord c.sec⟩
     let thawed (s : State) : State := { s with clock := { s.clock with shadows := Tbl.set none s.clock.shadows m none } }
     exec (.frostRead m el) s = .next { s0 with lastRead := [BitVec.ofNat 18 c.sub]
                                                clock := { c with shadows := Tbl.set none c.shadows m (some frozen) } } ∧
     (∀ x, Tbl.get none s.clock.shadows m = some x → exec (.thawRead m) s = .next (thawed { s with lastRead := [x.date] })) ∧
     exec (.frostTimeout m) s = .next (thawed s))

/-- R438, R441, R442: staging: HALT = 1 opens it for an installer or the foreman; the stager's writes are staged, clamped;
another's are dropped with WRLOST; the commit sets the clock in one cycle, DAY clamped, SUB 0 when it was not staged, OSTOP
cleared. R434, R436, R437, R439, R443, R444: corrections from train time, the oscillator's stop, the end of the range, the backup
input. R445, R446: an alarm armed for a time that has passed fires at once, not skipped; one in the future stays armed until the
clock reaches it; firing clears ARM, sets FIRED and the report word's bit. Clauses in which a command leaves the state as it is
because its event cannot occur there are the model's choice (log entry 3). It follows the model's readings in log entries 15, 17.
It follows the model's readings in log entry 113. -/
def Obligations.ClockSetAndAlarms : Prop :=
  (∀ (s : State) (m : Nat) (id : Option Nat) (v : Word) (el : Elapsed), s.reaches m = true → m ≠ noOwner →
     let c := s.clock
     let n := v.toNat
     let wc (c : Clock) : Out := .next { s with clock := c }
     let time : Word := BitVec.ofNat 18 (min 23 (n / 2 ^ 12 % 32) * 2 ^ 12 + min 59 (n / 2 ^ 6 % 64) * 2 ^ 6 + min 59 (n % 64))
     let date : Word := BitVec.ofNat 18 (min 399 (n / 2 ^ 9) * 2 ^ 9 + max 1 (min 12 (n / 2 ^ 5 % 16)) * 2 ^ 5 + n % 32)
     (c.halt = false → 2 ≤ (s.writer m id).right ∨ m = 0 →
       exec (.haltSet m id) s = wc { c with halt := true, stager := m, stagerCred := (s.writer m id).cred, stSub := none, stTime := none, stDate := none }) ∧
     (c.halt = true → c.stager = m →
       exec (.clockStageWrite m 0o014_001 v) s = wc { c with stSub := some (BitVec.ofNat 18 (n / 8 * 8)) } ∧
       exec (.clockStageWrite m 0o014_004 v) s = wc { c with stTime := some time } ∧
       exec (.clockStageWrite m 0o014_005 v) s = wc { c with stDate := some date }) ∧
     (c.halt = false ∨ c.stager ≠ m → exec (.clockStageWrite m 0o014_004 v) s = wc { c with wrlost := true }) ∧
     (c.halt = true → c.stager = m → c.stTime = none → c.stDate = none → c.stSub = none →
       ∃ s', exec (.clockCommit m el) s = .next s' ∧ s'.clock = { (s.elapse el).clock with halt := false, stager := noOwner, stagerCred := {} }) ∧
     (c.halt = true → c.stager = m → ∀ x y, c.stTime = some x → c.stDate = some y → c.stSub = none →
       ∃ s', exec (.clockCommit m el) s = .next s' ∧ s'.clock.halt = false ∧ s'.clock.sub = 0 ∧ s'.clock.ostop = false ∧
         s'.clock.sec = min (secondsOf x (clampDate y)) (146097 * 86400 - 1) ∧ s'.clock.stager = noOwner ∧ s'.md.mode = s.md.mode)) ∧
  (∀ (s : State) (err rate : Int) (ok : Bool), s.md.mode.powered = true →
     let c := s.clock
     let wc (c : Clock) : Out := .next { s with clock := c }
     (s.train.tstate = 2 → err.natAbs < 2 ^ 18 → c.ostop = false →
       exec (.clockCorrection err) s = wc { c with slew := if err.natAbs * 1000000 < 30 * 2 ^ 18 then 0 else err }) ∧
     (s.train.tstate = 2 → 2 ^ 18 ≤ err.natAbs → c.halt = false → 0 ≤ (c.sec * 2 ^ 18 + c.sub : Nat) + err →
       (c.sec * 2 ^ 18 + c.sub : Nat) + err < (146097 * 86400 * 2 ^ 18 : Nat) →
       ∃ s', exec (.clockCorrection err) s = .next s' ∧ s'.clock.ostop = false ∧ s'.clock.src = true ∧
         (s'.clock.sec : Int) = ((c.sec * 2 ^ 18 + c.sub : Nat) + err) / 2 ^ 18 ∧ s'.clock.slew = 0) ∧
     (s.train.tstate = 2 → exec (.calibrationUpdate rate) s = wc { c with cal := max (-2000) (min 2000 rate) }) ∧
     (s.train.tstate ≠ 2 → exec (.clockCorrection err) s = .next s ∧ exec (.calibrationUpdate rate) s = .next s) ∧
     (∃ s', exec .oscillatorStop s = .next s' ∧ s'.clock.ostop = true ∧ s'.clock.ocause = 2 ∧ (s'.clock.bk 1).getLsbD 0 = false ∧
       s'.clock.sec = c.sec ∧ ∀ k, k ≠ 1 → s'.clock.bk k = c.bk k) ∧
     exec .clockRangeEnd s = wc { c with sec := 146097 * 86400 - 1, wrapend := true } ∧
     exec (.backupInputChange ok) s = wc { c with bkext := ok }) ∧
  (∀ (s : State) (m k : Nat) (id : Option Nat), k ≤ 1 → s.reaches m = true → 2 ≤ (s.writer m id).right →
     let a := s.clock.alarm k
     let fires (s' : State) : Prop := (s'.clock.alarm k).arm = false ∧ (s'.clock.alarm k).fired = true ∧
       (s'.clock.alarm k).skipped = false ∧ s'.clock.report.getLsbD k = true ∧ s'.clock.alarm (1 - k) = s.clock.alarm (1 - k)
     (a.arm = false → s.clock.sec < a.sec →
       exec (.alarmArm m k id) s = .next { s.changed (s.writer m id).cred (0o014_012 + 4 * k) 0o400_000 m with
         clock := s.clock.setAlarm k { a with arm := true } }) ∧
     (a.arm = false → a.sec ≤ s.clock.sec → ∃ s', exec (.alarmArm m k id) s = .next s' ∧ fires s' ∧ s'.clock.sec = s.clock.sec) ∧
     (a.arm = true → ∃ s', exec (.alarmFire k) s = .next s' ∧ fires s' ∧ a.sec ≤ s'.clock.sec))

/-- R449, R450: a service is judged by the period it arrives in; another value, another master's write and the key while the
check-in set is the source of service are ignored and counted. It follows the model's readings in log entries 14, 18. -/
def Obligations.WatchdogService : Prop :=
  ∀ (s : State) (m : Nat) (v : Word) (el : Elapsed), s.reaches m = true →
    let s0 := s.elapse el
    let w := s0.watchdog
    let key : Word := 0o525_252
    let serve (c : Nat) (s' : State) : Prop := exec (.watchdogService 0 key el) s = .next s' ∧ s'.watchdog.c = c
    (m ≠ 0 ∨ v ≠ key ∨ w.srcf = false → exec (.watchdogService m v el) s = .next { s0 with ignored := (s0.ignored + 1) % 2 ^ 18 }) ∧
    (s.reaches 0 = true → s.md.mode.ticks = true → s.md.mode ≠ .safe → w.run = true → w.expired = false → w.srcf = true →
      (w.opens ≤ w.c → w.c < w.closes →
        ∃ s', serve 0 s' ∧ s'.watchdog.expired = false ∧ s'.watchdog.chks = 0 ∧ s'.md = s.md) ∧
      (w.c < w.opens → ∃ s', serve w.c s' ∧ s'.watchdog.expired = true ∧ s'.watchdog.cause = 2 ∧ s'.md.safeDue = true) ∧
      (w.opens ≤ w.c → w.closes ≤ w.c →
        ∃ s', serve w.c s' ∧ s'.watchdog.expired = true ∧ s'.watchdog.cause = 1 ∧ s'.md.safeDue = true))

/-- R448, R449, R453: what expiry does: the cause in BK_W0 and WD_STAT, one pulse of WD_TRIP, Safe due. Afterwards nothing expires
again. The monitor clock's loss is no expiry. Clauses in which a command leaves the state as it is because its event cannot occur
there are the model's choice (log entry 3). It follows the model's readings in log entry 114. -/
def Obligations.WatchdogExpires : Prop :=
  ∀ (s : State), s.md.mode.ticks = true → s.md.mode ≠ .safe →
    let w := s.watchdog
    let expires (c : Instr) (cause : Nat) : Prop :=
      ∃ s', exec c s = .next s' ∧ s'.watchdog.expired = true ∧ s'.watchdog.cause = cause ∧ s'.watchdog.trips = w.trips + 1 ∧
        s'.md = { s.md with safeDue := true } ∧ (s'.clock.bk 0).toNat % 8 = cause ∧
        (s'.clock.bk 0).toNat / 8 = (s.clock.bk 0).toNat / 8 ∧ s'.work = s.work ∧ s'.rings = s.rings
    (w.run = true → w.expired = false → expires .watchdogLate 1 ∧ expires .watchdogClockFault 4) ∧
    (w.expired = true → exec .watchdogLate s = .next s ∧ exec .watchdogClockFault s = .next s) ∧
    (∃ s', exec .monitorClockLoss s = .next s' ∧ s'.watchdog = { w with monlost := true } ∧ s'.md = s.md)

/-! ## Power, modes and the tick -/

/-- R26, R30, R434, R443, R461, R477, R484, R485: a feed of 16.8 V starts the module from Off or Backup; with none, PD0 alone is
powered from no supply: OSTOP 1, OCAUSE 1, every backup word 0. A retry of both slots starts the first whose image is accepted,
the active one first. R26, R407, R475: the flush of Seal completes every outstanding point, names the last one and the mode at
entry in the seal record and sets CONT; without a feed the module then goes to Backup or Off, with one to Start. At the end of
Update the other firmware slot is active, on trial. Clauses in which a command leaves the state as it is because its event cannot
occur there are the model's choice (log entry 3). It follows the model's readings in log entries 16, 61, 12. -/
def Obligations.PowerUpAndSeal : Prop :=
  (∀ (s : State) (i : StartInputs) (ok : Bool),
     (s.md.mode = .off ∨ s.md.mode = .backup → 168 ≤ i.voltsA ∨ 168 ≤ i.voltsB →
       ∃ s', exec (.feedPresent i) s = .next s' ∧ s'.md.mode = .start ∧ s'.domainOn 1 = true ∧ s'.power.voltsA = i.voltsA ∧
         s'.variant = s.variant ∧ s'.recorder.seq = s.recorder.seq ∧ s'.arch.epoch = s.arch.epoch) ∧
     (s.md.mode = .off ∨ s.md.mode = .backup → i.voltsA < 168 → i.voltsB < 168 → exec (.feedPresent i) s = .next s) ∧
     (s.md.mode = .off → ∃ s', exec (.backupEntry ok) s = .next s' ∧ s'.md.mode = .backup ∧ s'.clock.ostop = true ∧
       s'.clock.ocause = 1 ∧ (∀ k, s'.clock.bk k = 0) ∧ s'.domainOn 0 = true ∧ s'.recorder = s.recorder) ∧
     (s.md.mode = .backup → ∃ s', exec .backupSourceExhausted s = .next s' ∧ s'.md.mode = .off ∧ s'.domainOn 0 = false ∧
       s'.persist = s.persist) ∧
     (s.md.mode = .start → s.firmware.failed = true →
       let f := s.firmware
       let accepted (b : Bool) : Prop := ∃ m key, f.slot b = some m ∧ m.signer = some key ∧ s.makerKey key = true ∧ f.svn ≤ m.svn ∧
         (if b then i.slotBOk else i.slotAOk) = true
       let starts (g : Firmware) : Prop := ∃ s', exec (.bootRetry i) s = .next s' ∧ s'.md.mode = .start ∧ s'.firmware = g ∧
         s'.recorder.open_ = true ∧ s'.domainOn 3 = true ∧ s'.domainOn 7 = true ∧ s'.power.hold = i.hold
       (accepted f.active → starts { f with failed := false }) ∧
       (¬ accepted f.active → accepted (!f.active) → starts { f with active := !f.active, trial := false, failed := false }) ∧
       (¬ accepted f.active → ¬ accepted (!f.active) → exec (.bootRetry i) s = .next (s.elapse i.el)))) ∧
  (∀ (s : State) (b : Bool) (time : Nat) (p : Point) (m : Mode) (i : StartInputs), s.md.sealFrom = some m →
     s.persist.outstanding.getLast? = some p → s.pages.busy = false →
     (s.md.mode = .seal → ∃ s', exec (.sealComplete none b time) s = .next s' ∧ s'.md.mode = (if b then .backup else .off) ∧
       s'.persist.complete = some p ∧ s'.persist.outstanding = [] ∧
       s'.persist.sealed_ = some ⟨p.serial, m, p.utcSec, p.utcSub, p.sample⟩ ∧ s'.firmware.active = s.firmware.active ∧
       (b = true → (s'.clock.bk 1).getLsbD 0 = true)) ∧
     (s.md.mode = .seal → ∃ s', exec (.sealComplete (some i) b time) s = .next s' ∧ s'.md.mode = .start) ∧
     (s.md.mode = .update → ∃ s', exec (.sealComplete none b time) s = .next s' ∧ s'.md.mode = (if b then .backup else .off) ∧
       s'.firmware.active = (!s.firmware.active) ∧ s'.firmware.trial = true ∧ s'.firmware.tries = 0 ∧ s'.firmware.armed = none))

/-- R41, R76, R485: the power-fail trip begins the ride-through; a return ends it; its end makes Seal due at the next boundary, or
at once where no tick runs; in Start, or with a failed bank, the module goes down without a seal. It follows the model's readings
in log entry 61. -/
def Obligations.RideThrough : Prop :=
  ∀ (s : State) (b : Bool) (duration lowest : Nat), s.md.mode.powered = true →
    let down : Mode := if b then .backup else .off
    (s.power.pfail = false → s.md.mode ≠ .start → s.power.failed = false →
      exec (.powerFailTrip b) s = .next { s with power := { s.power with pfail := true } }) ∧
    (s.power.pfail = false → s.md.mode = .start ∨ s.power.failed = true →
      ∃ s', exec (.powerFailTrip b) s = .next s' ∧ s'.md.mode = down ∧ s'.persist.complete = s.persist.complete ∧
        s'.pages.words = s.pages.words) ∧
    (s.power.pfail = true → s.md.sealDue = false → s.md.mode ≠ .seal →
      ∃ s', exec (.rideThroughReturn duration lowest) s = .next s' ∧ s'.power = { s.power with pfail := false, ride := true } ∧
        s'.md = s.md ∧ s'.work = s.work) ∧
    (s.power.pfail = true → s.md.mode.ticks = true →
      ∃ s', exec .rideThroughEnd s = .next s' ∧ s'.md = { s.md with sealDue := true } ∧ s'.work = s.work) ∧
    (s.power.pfail = true → s.md.mode = .service ∨ s.md.mode = .update →
      ∃ s', exec .rideThroughEnd s = .next s' ∧ s'.md.mode = .seal ∧ s'.md.sealFrom = some s.md.mode ∧ s'.work = s.work) ∧
    (∃ s', exec (.holdUpFailure false b) s = .next s' ∧ s'.md.mode = down ∧ s'.setup = settingsOf s.setup) ∧
    (∃ s', exec (.holdUpFailure true b) s = .next s' ∧ s'.md = s.md ∧ s'.power.failed = true ∧ s'.power.hold = 0)

/-- R484, R487, R499–R501: feeds, the bank and the temperature as measured; SROK stands while the bank holds V_SR. R436, R443,
R491: a domain whose overcurrent limit trips or that leaves regulation switches off: PD6 and PD9 are retried once; PD1's takes the
module down; PD0's, where the backup source does not take over, clears the backup domain; any other makes Safe due. It follows the
model's readings in log entries 62, 63. -/
def Obligations.PowerMeasured : Prop :=
  (∀ (s : State) (bank : Nat) (volts temp : Int) (long : Bool), s.md.mode.powered = true →
     let only (c : Instr) (p : Power) : Prop := ∃ s', exec c s = .next s' ∧ s'.power = p ∧ s'.md = s.md ∧ s'.work = s.work ∧
       s'.setup = s.setup ∧ s'.rings = s.rings
     let class_ (before : FeedClass) : FeedClass :=
       if volts < 0 then .reversed else if volts < 144 then .absent else if 168 ≤ volts ∧ volts ≤ 1375 then .inRange
       else if 1375 < volts ∧ long = true then .outOfRange else if before = .reversed then .absent else before
     (bank < s.vSr → only (.bankBelowReserve bank) { s.power with hold := bank, srok := false }) ∧
     (s.vSr ≤ bank → only (.bankReserveReached bank) { s.power with hold := bank, srok := true, failed := false }) ∧
     only (.feedStateChange 0 volts long) { s.power with feedA := class_ s.power.feedA, voltsA := volts.toNat } ∧
     only (.feedStateChange 1 volts long) { s.power with feedB := class_ s.power.feedB, voltsB := volts.toNat } ∧
     (temp < 850 → only (.temperatureThreshold temp) { s.power with temp := temp, hot := 0 }) ∧
     (850 < temp → temp ≤ 950 → only (.temperatureThreshold temp) { s.power with temp := temp, hot := max 1 s.power.hot }) ∧
     (950 < temp → only (.temperatureThreshold temp) { s.power with temp := temp, hot := 2 })) ∧
  (∀ (s : State) (limit ok b : Bool), s.md.mode.powered = true →
     (∀ d, d = 6 ∨ d = 9 → s.domainOn d = true → ∃ s', exec (.domainFault d ⟨limit, b⟩) s = .next s' ∧ s'.domainOn d = false ∧
       Tbl.get false s'.power.retry d = true ∧ s'.md.safeDue = s.md.safeDue ∧ s'.md.mode = s.md.mode) ∧
     (∀ d, d = 2 ∨ d = 3 ∨ (d = 4 ∧ s.variant = 2) ∨ d = 5 ∨ d = 7 ∨ d = 8 → s.domainOn d = true → s.md.mode.ticks = true →
       s.md.mode ≠ .safe → ∃ s', exec (.domainFault d ⟨limit, b⟩) s = .next s' ∧ s'.domainOn d = false ∧ s'.md.mode = s.md.mode ∧
         s'.md.safeDue = true ∧ (d = 8 → s'.island.istate = 0) ∧ (d = 7 → ∀ k, (s'.link k).up = false)) ∧
     (s.domainOn 0 = true → ∃ s', exec (.domainFault 0 ⟨limit, b⟩) s = .next s' ∧ s'.domainOn 0 = false ∧ s'.md = s.md ∧
       (b = false → s'.clock.ostop = true ∧ s'.clock.ocause = 1 ∧ ∀ k, s'.clock.bk k = 0) ∧ (b = true → s'.clock = s.clock)) ∧
     (s.domainOn 1 = true → ∃ s', exec (.domainFault 1 ⟨limit, b⟩) s = .next s' ∧ s'.md.mode = .off) ∧
     (∀ d, Tbl.get false s.power.retry d = true → s.md.mode ≠ .seal → s.md.sealDue = false →
       ∃ s', exec (.domainRetry d ok) s = .next s' ∧ s'.domainOn d = (ok || s.domainOn d) ∧
         Tbl.get false s'.power.retry d = false ∧ s'.md = s.md))

/-- R26–R28: a mode request listed for the mode, with its right and its condition met, waits for its boundary, and changes the
mode there; the one that leaves Service, where no boundary comes, does so at once. BUSY while a transition is due, REFUSED when it
is not listed. It follows the model's readings in log entry 34. -/
def Obligations.ModeRequested : Prop :=
  ∀ (s s1 : State) (q q1 : Req), Taken s 0 0o030 0 q s1 q1 →
    let k := ticketOf 0 q
    let right := s1.rightOf 0 q.origin
    let target := q1.desc.a0.toNat % 16
    let cred := s1.credOf 0 q.origin
    let done (rep : Reply) : Out := .next (s1.complete k rep)
    let waits (made m : Mode) : Out := .next { s1 with md := { s1.md with
      requests := s1.md.requests ++ [⟨m, made, q1.desc.a0.getLsbD 4, k, cred.role, cred.fp, false⟩] } }
    (s1.md.mode = .service → s1.transitionDue = false → target = 3 → 2 ≤ right → ∃ s2 : State, exec (.modeRequest q) s = .next (s2.complete k {}) ∧
      s2.md.mode = .stop ∧ s2.md.prev = .service ∧ s2.md.serviceSession = none ∧ s2.work = s1.work ∧ s2.rings = s1.rings) ∧
    (s1.md.mode = .safe → s1.transitionDue = false → target = 3 → 2 ≤ right → exec (.modeRequest q) s = waits .safe .stop) ∧
    (s1.md.mode = .stop → s1.transitionDue = false → target = 11 → 2 ≤ right → exec (.modeRequest q) s = waits .stop .service) ∧
    (s1.md.mode = .run → s1.arch.lstate = 6 →
      (s1.transitionDue = true → exec (.modeRequest q) s = done { status := 3 }) ∧
      (s1.transitionDue = false → target = 8 ∨ target = 11 ∨ 12 ≤ target → exec (.modeRequest q) s = done { status := 2 }) ∧
      (s1.transitionDue = false → target = 3 → 1 ≤ right → exec (.modeRequest q) s = waits .run .stop) ∧
      (s1.transitionDue = false → target = 5 → 2 ≤ right → exec (.modeRequest q) s = waits .run .hold) ∧
      (s1.transitionDue = false → target = 5 → right < 2 → ∃ s', exec (.modeRequest q) s = .next s' ∧ s'.md = s.md ∧
        (∀ id, q.origin = .session id → s'.sessionOut = s1.sessionOut ++ [(id, ⟨0, q.desc.tag, 1, 0, 0, 0, []⟩)])))

/-- R44, R46, R67, R74: a boundary in Stop with nothing due: a consistency point is taken of the tick that ends, its commits stand
for every reader, and the next tick's number is one more. R25–R28: the precedence of a boundary: Seal over Safe, Safe over every
request; with none of them due, an accepted request changes the mode. It follows the model's readings in log entry 61. -/
def Obligations.BoundaryOrder : Prop :=
  (∀ (s : State) (i : BoundaryInputs), s.md.mode = .stop → s.arch.lstate = 6 → s.md.tasksRun = false → s.md.sealDue = false →
     s.md.safeDue = false → s.md.requests = [] → s.md.waitsForPartner = false → s.firmware.armed = none → s.online.staged = none →
     (∀ t, (s.tile t).closeDue = false) → Tbl.wf none s.work.mortar.outNew = true →
     ∃ s', exec (.tickBoundary i) s = .next s' ∧ s'.md.mode = .stop ∧ s'.work.count = (s.work.count + 1) % 2 ^ 54 ∧
       s'.md.imageClosed = false ∧ s'.work.mortar.outNew = [] ∧ s'.persist.serial = s.persist.serial + 1 ∧
       (∀ k, Tbl.get 0 s'.work.mortar.out k = (Tbl.get none s.work.mortar.outNew k).getD (Tbl.get 0 s.work.mortar.out k)) ∧
       s'.tick = s.work.setup ∧
       ∃ p, s'.persist.outstanding = s.persist.outstanding ++ [p] ∧ p.count = s.work.count ∧ p.mode = .stop) ∧
  (∀ (s : State) (i : BoundaryInputs), s.md.mode.ticks = true → s.arch.lstate ≠ 4 →
     (s.md.sealDue = true → ∃ s', exec (.tickBoundary i) s = .next s' ∧ s'.md.mode = .seal ∧ s'.md.prev = s.md.mode ∧
       s'.md.requests = [] ∧ s'.md.sealFrom = some s.md.mode) ∧
     (s.md.sealDue = false → s.md.safeDue = true → s.md.mode ≠ .safe →
       ∃ s', exec (.tickBoundary i) s = .next s' ∧ s'.md.mode = .safe ∧ s'.md.prev = s.md.mode ∧ s'.md.safeDue = false) ∧
     (∀ r rest, s.md.mode = .run → s.arch.lstate = 6 → s.md.sealDue = false → s.md.safeDue = false → s.md.staleDue = false → s.md.stopDue = false →
       s.online.holdDue = false → s.firmware.armed = none → s.watchdog.run = false → (∀ t, (s.tile t).closeDue = false) →
       s.md.requests = r :: rest → r.made = .run → r.wait = false → r.target = .stop ∨ r.target = .hold →
       ∃ s', exec (.tickBoundary i) s = .next s' ∧ s'.md.mode = r.target ∧ s'.md.prev = .run ∧ s'.md.requests = []))

/-- R30, R34, R35, R39, R238: the end of Start: a Keystone sealed or cut off in Run goes on in Run, at the tick after the last one
started, later by the whole ticks of the outage; a cold restart with COLD 0, or a restart sealed in Stop, ends in Stop; a cause of
Safe in Safe; without the seal reserve Start waits. The loser of an election ends Start so once the time for the winner is over.
It follows the model's readings in log entry 64. It follows the model's readings in log entry 117. -/
def Obligations.StartEnds : Prop :=
  ∀ (s : State) (i : BoundaryInputs), s.md.mode = .start → s.firmware.failed = false → s.online.staged = none →
    let safe := s.md.startFault || s.md.safePending
    let ends (c : Instr) (m : Mode) : Prop := ∃ s', exec c s = .next s' ∧ s'.md.mode = m ∧ s'.md.kind = s.md.foundKind
    let c := (s.elapse i.el).clock
    let outage : Nat := if s.md.foundUnk then 0
      else (c.sec * 2 ^ 18 + c.sub - (s.md.foundUtc.1 * 2 ^ 18 + s.md.foundUtc.2)) * 1000000 / 2 ^ 18 / max 1 s.tick.period
    let runs (c : Instr) : Prop := ∃ s', exec c s = .next s' ∧ s'.md.mode = .run ∧ s'.md.kind = s.md.foundKind ∧ s'.md.startTick = true ∧
      s'.md.tasksRun = true ∧ s'.arch.lstate = 6 ∧ s'.work.count = (s.work.count + 1 + outage) % 2 ^ 54
    (s.power.srok = false → exec (.startComplete i) s = .next (s.elapse i.el)) ∧
    (s.power.srok = true → s.arch.electing = false → safe = false → s.md.foundKind ≠ 2 → s.md.sealedMode = some .run →
      s.partnerHolds = false → s.claimed.isSome = true → runs (.startComplete i)) ∧
    (s.power.srok = true → s.arch.electing = false → safe = true → ends (.startComplete i) .safe) ∧
    (s.power.srok = true → s.arch.electing = false → safe = false → s.md.foundKind = 2 → s.md.sealedMode ≠ some .safe →
      bitOf s.mdCfg 1 = false → ends (.startComplete i) .stop) ∧
    (s.power.srok = true → s.arch.electing = false → safe = false → s.md.foundKind = 0 → s.md.sealedMode = some .stop →
      ends (.startComplete i) .stop) ∧
    (s.power.srok = true → s.arch.electing = true → safe = false → s.md.foundKind = 0 → s.md.sealedMode = some .stop →
      ends (.electionTimeout i) .stop) ∧
    (s.power.srok = true → s.arch.electing = true → safe = false → s.md.foundKind ≠ 2 → s.md.sealedMode = some .run →
      s.claimed.isSome = true → runs (.electionTimeout i))

/-- R46, R52, R70, R183: the input image of the tick closes at T_in: the image before becomes the one triggers compare with, the
system words hold the tick count, and tasks see the image with its forces. Outputs, the tick number and the program stay. R213,
R224, R226: at T_in a present station whose accepted block is missing drops out and keeps its words; a returned station waits for
its acknowledgement where tasks run, and is admitted at once elsewhere; an admitted station's words are taken. R46, R365, R367,
R368, R370, R371: the field side: debounced classes, the sample at the latch instant, the safe states of modes without a tick and
of silence, and output faults that latch until the output is commanded off with their cause gone. It follows the model's readings
in log entry 46. It follows the model's readings in log entry 105. -/
def Obligations.ImageAndField : Prop :=
  (∀ (s : State) (el : Elapsed), s.md.mode.ticks = true → s.md.mode ≠ .track → s.md.imageClosed = false →
     ∃ s', exec (.inputImageClose el) s = .next s' ∧ s'.md.imageClosed = true ∧ s'.arch.tinPassed = true ∧
       s'.work.mortar.inputPrev = s.work.mortar.input ∧
       s'.work.mortar.input = applyForces false s'.work.mortar.inputField s.work.forces ∧
       Tbl.get 0 s'.work.mortar.inputField 0o077_000 = BitVec.ofNat 18 (s.work.count % 2 ^ 36) ∧
       Tbl.get 0 s'.work.mortar.inputField 0o077_001 = BitVec.ofNat 18 (s.work.count % 2 ^ 36 / 2 ^ 18) ∧
       s'.work.mortar.out = s.work.mortar.out ∧ s'.work.count = s.work.count ∧ s'.work.mem = s.work.mem ∧ s'.md.mode = s.md.mode) ∧
  (∀ (st : Station) (b : IBlock) (atOnce : Bool),
     stationStep atOnce { st with present := true } none = ⟨false, false, true, false, .keep⟩ ∧
     stationStep atOnce { st with present := false } none = ⟨false, false, st.awaiting, false, .substitute⟩ ∧
     (b.new = false ∨ st.enSent = false → stationStep atOnce { st with present := true } (some b) = ⟨true, false, false, false, .take⟩) ∧
     (b.new = true → st.enSent = true →
       stationStep atOnce { st with present := true } (some b) = ⟨atOnce, !atOnce, true, !atOnce, .keep⟩) ∧
     stationStep true { st with present := false } (some b) = ⟨true, false, false, false, .take⟩ ∧
     stationStep false { st with present := false, awaiting := false } (some b) = ⟨false, true, false, true, .substitute⟩ ∧
     stationStep false { st with present := false, awaiting := true } (some b) = ⟨false, true, false, false, .substitute⟩) ∧
  (∀ (s : State) (el : Elapsed) (li : LatchInputs) (ch k : Nat) (cur : Option Nat), s.domainOn 8 = true → ch < 32 → k < 16 →
     let wb := s.wben ch
     let cls : Nat := match cur with
       | none => 3
       | some c => if c < 15 then (if wb then 2 else 0) else if c < 30 then (if wb then s.field.cls ch else 0) else if c < 120 then 0
         else if c < 160 then s.field.cls ch else 1
     let o := s.field.out k
     (∃ s', exec (.inputDebounce ch cur) s = .next s' ∧ s'.field.cls ch = cls ∧ (∀ j, j ≠ ch → s'.field.cls j = s.field.cls j) ∧
       s'.field.outs = s.field.outs ∧ s'.work = s.work) ∧
     (s.md.mode.ticks = true → ∃ s', exec (.latchInstant li) s = .next s' ∧ s'.work = s.work ∧
       (∀ j, j < 18 → s'.field.sampled0.getLsbD j = decide (s.field.cls j = 1)) ∧
       (∀ j, j < 14 → s'.field.sampled1.getLsbD j = decide (s.field.cls (18 + j) = 1)) ∧ s'.field.inputs = s.field.inputs) ∧
     (∃ s', exec .logicSilenceTimeout s = .next s' ∧ s'.field.silent = true ∧
       (s'.field.out k).commanded = s.foSafe.getLsbD k ∧ s'.work = s.work) ∧
     (s.md.mode.powered = true → s.md.mode.ticks = false → ∃ s', exec (.fieldUpdateUnticked el) s = .next s' ∧
       (s'.field.out k).commanded = s.foSafe.getLsbD k ∧ (s.foSafe.getLsbD k = false → (s'.field.out k).on = false) ∧
       (s.foSafe.getLsbD k = true → o.latched = 0 → o.present.testBit 5 = false → (s'.field.out k).on = true) ∧ s'.work = s.work ∧ s'.md = s.md) ∧
     (∃ s', exec (.fieldOutputFault k 1 true) s = .next s' ∧ (s'.field.out k).latched.testBit 1 = true ∧
       (s'.field.out k).on = false ∧ ∀ j, j ≠ k → s'.field.out j = s.field.out j) ∧
     (∃ s', exec (.fieldOutputFault k 5 true) s = .next s' ∧
       ∀ j, j < 16 → j / 8 = k / 8 → (s'.field.out j).on = false ∧ (s'.field.out j).latched = (s.field.out j).latched))

/-! ## Forces and online change -/

/-- R181–R186, R190: a force command queues its change for the boundary with its completion; where no tick runs it acts and
completes at once. FORCE_LIST and VIEW return their words. It follows the model's readings in log entries 32, 8, 69. -/
def Obligations.ForcesCommanded : Prop :=
  ∀ (s s1 : State) (q q1 : Req),
    let k := ticketOf 0 q
    let d := q1.desc
    let area := bitsOf d.a0 17 15
    let index := bitsOf d.a0 14 0
    let isWord := d.a2.getLsbD 0
    let bit := min 17 (bitsOf d.a1 4 0)
    let cred := s1.credOf 0 q.origin
    let o := s1.online
    let refused : Out := .next (s1.complete k { status := 2 })
    let queued (c : ForceChange) : State :=
      { s1 with online := { o with forceChanges := o.forceChanges ++ [c], forceTickets := o.forceTickets ++ [k] } }
    let kept (b : Bool) (c : ForceChange) (x : Instr) (e : State → State) : Prop :=
      (b = true → exec x s = .next (e (queued c))) ∧
      (b = false → ∃ s', exec x s = .next s' ∧ s'.work = { s1.work with forces := applyForceChange s1.work.forces c } ∧
        s'.rings = (s1.complete k {}).rings ∧ s'.online = o)
    let open_ : Prop := s1.partnerHolds = false ∧ s1.stagedAlters isWord (decide (area = 1)) index bit = false
    (Taken s 0 0o044 2 q s1 q1 →
      (open_ → area ≤ 1 → index < 0o077_000 → s1.forcesAhead.length < 1024 →
        ∃ f : Force, f.word = isWord ∧ f.output = decide (area = 1) ∧ f.index = index ∧ (isWord = false → f.bit = bit) ∧
          f.value = (if isWord then d.a3 else d.a3 &&& 1) ∧ f.role = cred.role ∧ f.fp = cred.fp ∧
          kept s1.md.mode.ticks (.set f) (.forceSet q) fun x => x.named .forceSet 0 0 cred [d.a0.toNat, bit, f.value.toNat, 0]) ∧
      (s1.partnerHolds = true ∨ 2 ≤ area ∨ 0o077_000 ≤ index → exec (.forceSet q) s = refused)) ∧
    (Taken s 0 0o045 2 q s1 q1 → open_ → area ≤ 1 →
      ((∃ f ∈ s1.forcesAhead, f.output = decide (area = 1) ∧ f.index = index ∧ f.word = isWord ∧ (isWord = false → f.bit = bit)) →
        kept s1.md.mode.ticks (.clear isWord (decide (area = 1)) index (if isWord then 0 else bit)) (.forceClear q) fun x =>
          x.named .forceCleared 0 0 cred [d.a0.toNat, bit, 0, 0]) ∧
      ((∀ f ∈ s1.forcesAhead, f.output ≠ decide (area = 1) ∨ f.index ≠ index) → exec (.forceClear q) s = refused)) ∧
    (Taken s 0 0o046 2 q s1 q1 → s1.partnerHolds = false →
      (∀ f ∈ s1.forcesAhead, s1.stagedAlters f.word f.output f.index f.bit = false) →
      kept s1.md.mode.ticks .clearAll (.forceClearAll q) fun x => x.named .forceCleared 0 0 cred [0, 0, 0, 0]) ∧
    (Taken s 0 0o047 1 q s1 q1 →
      let entry (f : Force) : List Word :=
        [BitVec.ofNat 18 ((if f.word then 2 ^ 17 else 0) + (if f.output then 2 ^ 16 else 0) + f.index), BitVec.ofNat 18 f.bit, f.value,
         BitVec.ofNat 18 f.sym, BitVec.ofNat 18 (f.sym / 2 ^ 18), f.meaning, BitVec.ofNat 18 (f.role * 2 ^ 16 + f.fp % 2 ^ 16), 0]
      let listed := ((s1.work.forces.drop (min 1023 d.a0.toNat)).take 16).flatMap entry
      exec (.forceList q) s = .next (s1.complete k { data := listed })) ∧
    (Taken s 0 0o050 1 q s1 q1 →
      let n := d.a2.toNat
      let first := d.a1.toNat
      let field := d.a3.getLsbD 0
      let m := s1.work.mortar
      let shows (f : Nat → Word) : Prop :=
        exec (.view q) s = .next (s1.complete k { data := (List.range n).map fun i => f (first + i) })
      (1 ≤ n → n ≤ 64 → first + n ≤ 32768 →
        (d.a0 = 0 → shows (Tbl.get 0 (if field then m.inputField else m.input))) ∧
        (d.a0 = 1 → field = true → shows (Tbl.get 0 m.emitted)) ∧
        (d.a0 = 1 → field = false → shows fun i => (Tbl.get none m.outNew i).getD (Tbl.get 0 m.out i)) ∧
        (d.a0 = 2 → first + n ≤ 8192 → shows (Tbl.get 0 m.exch))) ∧
      (3 ≤ d.a0.toNat → exec (.view q) s = refused))

/-- R181, R183: a word force gives its word its value and removes the word's bit forces; a bit force on a word that is not
word-forced gives that one bit its value and leaves the other bits; no other word of either image changes. -/
def Obligations.ForcesAct : Prop :=
  ∀ (table : List Force) (f : Force) (img : Tbl Word) (out : Bool) (i : Nat),
    let before := Tbl.get 0 (applyForces out img table) i
    let after := Tbl.get 0 (applyForces out img (applyForceChange table (.set f))) i
    let here : Prop := f.output = out ∧ f.index = i
    Tbl.wf 0 img = true →
      (here → f.word = true → after = f.value) ∧
      (here → f.word = false → f.bit ≤ 17 → (∀ g ∈ table, g.output = out → g.index = i → g.word = false ∧ g.bit ≤ 17) →
        ∀ j, j < 18 → after.getLsbD j = if j = f.bit then f.value.getLsbD 0 else before.getLsbD j) ∧
      (¬ here → after = before) ∧
      Tbl.get 0 (applyForces out img (applyForceChange table .clearAll)) i = Tbl.get 0 img i

/-- R168, R171–R180: staging writes at most 2,000 words a millisecond and changes nothing of the running program until the package
is whole and proved; it pauses while write-behind lags. LOAD makes a proved full package the program, in Stop; ACTIVATE arms a
proved change package; CANCEL discards it and completes the armed ACTIVATE ABORTED. Clauses in which a command leaves the state as
it is because its event cannot occur there are the model's choice (log entry 3). It follows the model's readings in log entry 30.
It follows the model's readings in log entries 31, 85. -/
def Obligations.OnlineChange : Prop :=
  ∀ (s s1 : State) (q q1 : Req) (p : Package) (n : Nat) (g : Staged) (ok : Bool),
    let k := ticketOf 0 q
    let cred := s1.credOf 0 q.origin
    let o := s1.online
    let same (s' : State) : Prop := s'.work.program = s.work.program ∧ s'.work.mortar = s.work.mortar ∧ s'.work.forces = s.work.forces ∧
      s'.md = s.md
    (s.persist.lagging = false → s.online.staged = some g → g.state = 1 → s.online.paused = false → ∃ s',
      exec (.packageStaging p n) s = .next s' ∧ same s' ∧
      (g.written + min n 2000 < g.total → s'.online.staged = some { g with written := g.written + min n 2000 } ∧ s'.rings = s.rings) ∧
      (g.total ≤ g.written + min n 2000 → (∃ g', s'.online.staged = some g' ∧ g'.pkg = g.pkg ∧ g'.state = 3) ∨
        (s'.online.staged = none ∧ ∃ r, s'.online.failed = some r ∧ s'.online.refusal = r))) ∧
    (s.persist.lagging = false → s.online.staged = none → s.online.transferred = true →
      s.md.mode = .stop ∨ (p.full = false ∧ (s.md.mode = .run ∨ s.md.mode = .hold ∨ s.md.mode = .track)) →
      min n 2000 < (s.stageWrites p).length →
      ∃ s' g', exec (.packageStaging p n) s = .next s' ∧ s'.online.staged = some g' ∧ g'.pkg = p ∧ g'.written = min n 2000 ∧
        g'.total = (s.stageWrites p).length ∧ g'.state = 1 ∧ s'.online.transferred = false ∧ same s' ∧ s'.rings = s.rings) ∧
    (s.persist.lagging = true → s.online.staged = some g → g.state = 1 →
      exec (.packageStaging p n) s = .next { s with online := { s.online with paused := true } }) ∧
    (exec .stagingResume s =
      .next { s with online := { s.online with paused := false }, persist := { s.persist with lagging := false } }) ∧
    (s.domainOn 2 = true → s.md.mode ≠ .track → s.arch.lstate = 5 → s.online.staged = some g →
      exec (.packageRelay p ok) s = .next { s with online := { s.online with archReady := ok } }) ∧
    (s.domainOn 2 = true → s.md.mode = .track → s.online.staged = none → p.full = false →
      exec (.packageRelay p ok) s = .next { s with online := { s.online with
        staged := some ⟨p, 0, (s.stageWrites p).length, 1, s.tick, []⟩, paused := false, failed := none } }) ∧
    (Taken s 0 0o042 2 q s1 q1 → o.staged = some g →
      (s1.md.mode = .stop → g.pkg.full = true → g.state = 3 →
        ∃ s2 : State, exec (.load q) s = .next (s2.complete k {}) ∧ s2.work.program.id = g.pkg.id ∧ s2.work.program.gen = 0 ∧
          s2.work.program.loaded = true ∧ s2.programCred = cred ∧ s2.md = { s1.md with coldCause := 4 } ∧ s2.online.staged = none ∧
          s2.work.mortar = s1.work.mortar ∧ s2.rings = s1.rings) ∧
      (s1.md.mode ≠ .stop ∨ g.pkg.full = false ∨ g.state ≠ 3 → exec (.load q) s = .next (s1.complete k { status := 2 }))) ∧
    (Taken s 0 0o040 2 q s1 q1 → o.staged = some g →
      let at_ := q1.desc.a1.toNat + q1.desc.a2.toNat * 2 ^ 18
      let sched := q1.desc.a0.getLsbD 0
      let future : Prop := ∃ x, 1 ≤ x ∧ x < 2 ^ 35 ∧ at_ = (s1.work.count + x) % 2 ^ 36
      let may : Prop := o.armed = none ∧ g.state = 3 ∧ g.pkg.full = false ∧
        (s1.md.mode = .stop ∨ s1.md.mode = .run ∨ (s1.md.mode = .hold ∧ s1.anyOpen = false))
      (may → g.proved = s1.tick → g.provedAllocs = s1.allocations → (sched = true → future) →
        exec (.activate q) s = .next { s1 with online := { o with
          staged := some { g with state := 4 }, armed := some k, armedBy := cred, sched := sched, atk := if sched then at_ else o.atk } }) ∧
      (may → sched = true → ¬ future → exec (.activate q) s =
        .next (({ s1 with online := { o with refusal := { code := 16 } } } : State).complete k { status := 2, code := 16 })) ∧
      (o.armed.isSome = true ∨ g.state ≠ 3 ∨ g.pkg.full = true → exec (.activate q) s = .next (s1.complete k { status := 2 }))) ∧
    (Taken s 0 0o041 2 q s1 q1 →
      (o.staged = none → exec (.cancel q) s = .next (s1.complete k { status := 2 })) ∧
      (o.staged = some g → ∃ s2 : State, exec (.cancel q) s = .next (s2.complete k {}) ∧ s2.online.staged = none ∧ s2.online.armed = none ∧
        s2.online.archReady = false ∧ s2.work = s1.work ∧ (o.armed = none → s2.rings = s1.rings) ∧
        (∀ a, o.armed = some a → s2.rings = (s1.complete a { status := 4 }).rings)))

/-! ## Non-volatile memories -/

/-- R73, R77, R403: write-behind: lines of the oldest point are copied; with none left it is complete; a lag is told once, as
error cause 3. The working state that tasks see does not change. R409–R413, R431: an event that repeats no open record becomes the
record with the next SEQ, overwriting the oldest slot when the recorder is full; a repeat counts in its record; SQUALL closes a
record. RC_LOG and the reads. Clauses in which a command leaves the state as it is because its event cannot occur there are the
model's choice (log entry 3). It follows the model's readings in log entries 57, 56. It follows the model's readings in log
entries 108, 111. -/
def Obligations.WriteBehindAndRecorder : Prop :=
  (∀ (s : State) (n : Nat) (p : Point) (rest : List Point), s.persist.outstanding = p :: rest →
     exec (.writeBehindCopy n) s =
       .next { s with persist := { s.persist with outstanding := { p with left := p.left - n } :: rest } } ∧
     (p.left = 0 → ∃ s', exec .consistencyPointComplete s = .next s' ∧ s'.persist.complete = some p ∧
       s'.persist.outstanding = rest ∧ (s'.clock.bk 1).getLsbD 0 = true ∧ s'.work = s.work) ∧
     (p.left ≠ 0 → exec .consistencyPointComplete s = .next s) ∧
     (s.persist.lagging = false → ∃ s', exec .writeBehindLag s = .next s' ∧ s'.persist.lagging = true ∧
       s'.work.errNow = s.work.errNow ||| 8 ∧ s'.work.mem = s.work.mem ∧ s'.work.mortar = s.work.mortar) ∧
     (s.persist.lagging = true → exec .writeBehindLag s = .next s)) ∧
  (∀ (s s1 : State) (q q1 : Req) (w : Waiting) (rest : List Waiting) (x : Record) (n : Nat),
     let rc := s.recorder
     let k := ticketOf 4 q
     let same (x : Record) : Prop := x.event.code = w.event.code ∧ x.event.level = w.event.level ∧ x.event.index = w.event.index ∧
       x.event.role = w.event.role ∧ x.event.fp = w.event.fp
     let slot := rc.seq % 262144
     let ovw := (rc.ovw + if (Tbl.get none rc.records slot).isSome then 1 else 0) % 2 ^ 36
     let rep := min 262143 w.repeats
     let newest (l : List Nat) : List Nat := (l ++ [rc.seq]).drop (l.length + 1 - 32)
     (rc.queue = w :: rest → (∀ n ∈ rc.opened, ∀ y, rc.find n = some y → ¬ same y) →
       exec .recordWrite s = .next { s with recorder := { rc with
         queue := rest, seq := (rc.seq + 1) % 2 ^ 36, opened := newest rc.opened, ovw := ovw
         records := Tbl.set none rc.records slot (some ⟨rc.seq, w.sec, w.sub, false, w.event, rep, 0⟩) } }) ∧
     (rc.queue = w :: rest → (∀ n ∈ rc.opened, n ≠ x.seq → ∀ y, rc.find n = some y → ¬ same y) → x.seq ∈ rc.opened →
       rc.find x.seq = some x → same x →
       let last := (w.sec * 2 ^ 18 + w.sub - (x.sec * 2 ^ 18 + x.sub)) / 2 ^ 18
       (x.rep + 1 + w.repeats ≤ 262143 → last ≤ 262143 → exec .recordWrite s = .next { s with recorder := { rc with
         queue := rest
         records := Tbl.set none rc.records (x.seq % 262144) (some { x with rep := x.rep + 1 + w.repeats, last := last }) } }) ∧
       (262143 < x.rep + 1 + w.repeats ∨ 262143 < last → exec .recordWrite s = .next { s with recorder := { rc with
         queue := rest, seq := (rc.seq + 1) % 2 ^ 36, opened := newest (rc.opened.filter fun n => n != x.seq), ovw := ovw
         records := Tbl.set none rc.records slot (some ⟨rc.seq, w.sec, w.sub, true, w.event, rep, 0⟩) } })) ∧
     (rc.queue = [] → exec .recordWrite s = .next s) ∧
     exec (.squallClose n) s = .next { s with recorder := { rc with opened := rc.opened.filter fun i => i != n } } ∧
     (Taken s 4 0o171 1 q s1 q1 → s1.recorder.open_ = true → s1.recorder.queue.length < 4096 →
       let d (i : Nat) : Nat := (q1.data.getD i 0).toNat
       let code := max 0o200_000 (min 0o377_777 q1.desc.a0.toNat)
       let task := match q1.origin with | .tile _ j => j | _ => 0
       let cred := s1.credOf 4 q.origin
       let e : Event := ⟨.given code, 7, task, cred.role, cred.fp, [d 0, d 1, d 2, d 3]⟩
       exec (.rcLog q) s = .next (({ s1 with recorder := { s1.recorder with
         queue := s1.recorder.queue ++ [⟨e, s1.clock.sec, s1.clock.sub, 0⟩] } } : State).complete k {})) ∧
     (Taken s 4 0o170 1 q s1 q1 → ∃ l : List Record, exec (.rcRead q) s = .next (s1.complete k { data := l.flatMap Record.words }) ∧ l.length ≤ 16 ∧
       l.length ≤ max 1 q1.desc.a2.toNat ∧ (∀ y ∈ l, q1.desc.a0.toNat + q1.desc.a1.toNat * 2 ^ 18 ≤ y.seq ∧ y.seq < s1.recorder.seq ∧
         Tbl.get none s1.recorder.records (y.seq % 262144) = some y)) ∧
     (Taken s 4 0o172 1 q s1 q1 → ∃ (s' : State) (l : List Record) (sig : List Word), exec (.rcExport q) s = .next s' ∧
       s' = ({ s1 with fresh := s1.fresh + 32 } : State).complete k
         { data := l.flatMap Record.words ++ [Config.deviceFp 0, Config.deviceFp 1, Config.deviceFp 2, Config.deviceFp 3] ++ sig } ∧
       sig.length = 32 ∧ (∀ o ∈ sig, o.getLsbD 8 = false ∧ o.getLsbD 17 = false) ∧ l.length ≤ 4096 ∧ ∀ y ∈ l, y.seq < s1.recorder.seq))

/-- R414, R416, R417, R422–R424: a write waits its turn, and on an idle page store takes the grant and its first page; at the end
of a page the page holds the new words and its write count has gone up by 1; after the last the grant is free and the command
completes DONE with LEN. It follows the model's readings in log entry 73. -/
def Obligations.PagesWritten : Prop :=
  ∀ (s s1 : State) (q q1 : Req) (j : PageJob) (p n : Nat) (ws : List Word) (more : List (Nat × List Word × Nat)) (rest : List PageJob),
    let k := ticketOf 5 q
    let d := q1.desc
    let idle : Prop := s1.pages.jobs = [] ∧ s1.pages.busy = false
    let begins (c : Instr) (work : PageWork) : Prop := ∃ s' j', exec c s = .next s' ∧ s'.pages.jobs = s1.pages.jobs ++ [j'] ∧
      s'.pages.busy = true ∧ j'.work = work ∧ j'.ticket = some k ∧ s'.pages.words = s1.pages.words ∧ s'.rings = s1.rings ∧
      s'.work = s1.work ∧ (idle → s'.pages.grant = j'.owner ∧ j'.pages ≠ []) ∧ (¬ idle → s'.pages.grant = s1.pages.grant)
    let ready : Prop := idle ∨ s1.pages.busy = true
    let c := min 63 d.a0.toNat
    let given (m : Nat) : List Word := (List.range m).map fun i => q1.data.getD i 0
    (Taken s 5 0o201 2 q s1 q1 → ready → begins (.psWrite q) (.words (max 2048 (min 8191 d.a0.toNat)) (min 63 d.a1.toNat)
      (given (max 1 (min 4096 d.a2.toNat))))) ∧
    (Taken s 5 0o203 2 q s1 q1 → ready → begins (.pbWrite q) (.block (2 * (max 2048 (min 8191 d.a0.toNat) / 2)) (bitsOf d.a1 17 12)
      (given (max 1 (min 58 d.a2.toNat))))) ∧
    (Taken s 5 0o204 2 q s1 q1 → ready →
      let base := max 2048 d.a1.toNat
      let m := max 2 (min 256 d.a2.toNat)
      (s1.md.mode = .stop → base + m ≤ 8192 → (∀ e ∈ s1.pages.defined, e.1 ≠ c → rangesMeet base m e.2.1 e.2.2 = false) →
        begins (.scDefine q) (.define c base m)) ∧
      (s1.md.mode ≠ .stop ∨ 8192 < base + m → exec (.scDefine q) s = .next (s1.complete k { status := 2 }))) ∧
    (Taken s 5 0o205 1 q s1 q1 → ready →
      (∀ b m v i, s1.pages.counterDef c = some (b, m) → s1.pages.counterAt b m = (v, i) → v ≠ 2 ^ 36 - 1 →
        begins (.scInc q) (.increment c (max 1 d.a1.toNat)) ∧
        (idle → ∃ s', exec (.scInc q) s = .next s' ∧ s'.pages.intent = some (c, (i + 1) % 2 ^ 36))) ∧
      (s1.pages.counterDef c = none → exec (.scInc q) s = .next (s1.complete k { status := 2 }))) ∧
    (s.pages.busy = true → s.pages.jobs = { j with pages := (p, ws, n) :: more } :: rest → ws.length = 64 →
      ∃ s', exec .pageWriteComplete s = .next s' ∧ (∀ i, i < 64 → Tbl.get 0 s'.pages.words (64 * p + i) = ws.getD i 0) ∧
        (∀ a, a / 64 ≠ p → Tbl.get 0 s'.pages.words a = Tbl.get 0 s.pages.words a) ∧ s'.work = s.work ∧
        Tbl.get 0 s'.pages.writes p = Tbl.get 0 s.pages.writes p + 1 ∧ Tbl.get false s'.pages.undefined p = false) ∧
    (s.pages.busy = true → s.pages.jobs = [{ j with pages := [(p, ws, n)], rclm := false }] → s.pages.readers = [] →
      s.pages.forwards = [] →
      ∃ s', exec .pageWriteComplete s = .next s' ∧ s'.pages.busy = false ∧ s'.pages.jobs = [] ∧ s'.pages.grant = noOwner ∧
        ∀ t, j.ticket = some t → s'.rings = (s.complete t { len := some (j.done + n) }).rings)

/-- R414, R416, R418, R421, R426, R428, R431: reads of pages not under write answer at once; the scrub reads one page after
another and refreshes a weak one; a standby applies what its holder forwards. It follows the model's readings in log entry 55. It
follows the model's readings in log entry 110. -/
def Obligations.PagesReadAndScrubbed : Prop :=
  ∀ (s s1 : State) (q q1 : Req) (fw : ForwardedWrite) (page : Nat) (ws : List Word),
    let k := ticketOf 5 q
    let d := q1.desc
    let ps := s.pages
    let p := min 8191 d.a0.toNat
    let off := min 63 d.a1.toNat
    let n := min (max 1 (min 4096 d.a2.toNat)) (524288 - (64 * p + off))
    let told (x : Nat) : Prop := 1024 ≤ x ∨ (128 ≤ x ∧ x < 254)
    let ready : Prop := (ps.jobs = [] ∧ ps.busy = false) ∨ ps.busy = true
    let free : Prop := ∀ x, s1.pages.writing = some x → x ∉ s1.readPages d
    let waits (c : Instr) : Prop := ¬ free →
      exec c s = .next { s1 with pages := { s1.pages with readers := s1.pages.readers ++ [(q1, k)] } }
    let block (x : Nat × Nat × List Word) : List Word := BitVec.ofNat 18 (x.2.1 * 2 ^ 12 + x.2.2.length) :: x.2.2
    (Taken s 5 0o200 1 q s1 q1 → waits (.psRead q) ∧ (free →
      ((∀ x, p ≤ x → x ≤ (64 * p + off + n - 1) / 64 → Tbl.get false s1.pages.undefined x = false) → ∃ l : List Word,
        exec (.psRead q) s = .next (({ s1 with fresh := s1.fresh + 524288 } : State).complete k { data := l }) ∧ l.length = n ∧
        ∀ i, i < n → told ((64 * p + off + i) / 64) → l[i]? = some (Tbl.get 0 s1.pages.words (64 * p + off + i))) ∧
      (Tbl.get false s1.pages.undefined p = true → exec (.psRead q) s = .next (s1.complete k { status := 6 })))) ∧
    (Taken s 5 0o202 1 q s1 q1 → waits (.pbRead q) ∧ (free →
      let a := 2 * (p / 2)
      (told p →
        (∀ x y, s1.pages.copy a = some x → s1.pages.copy (a + 1) = some y → x.1 ≠ y.1 →
          exec (.pbRead q) s = .next (s1.complete k { data := block (if x.1 < y.1 then y else x) })) ∧
        (∀ x (b : Bool), s1.pages.copy (a + if b then 1 else 0) = some x → s1.pages.copy (a + if b then 0 else 1) = none →
          ∃ s', exec (.pbRead q) s = .next s' ∧ s'.rings = (s1.complete k { data := block x }).rings ∧ s'.pages = s1.pages) ∧
        (s1.pages.copy a = none → s1.pages.copy (a + 1) = none →
          exec (.pbRead q) s = .next (s1.complete k { status := 7 }))) ∧
      (¬ told p → ∃ rep : Reply, exec (.pbRead q) s = .next (({ s1 with fresh := s1.fresh + 1 } : State).complete k rep)))) ∧
    (Taken s 5 0o206 1 q s1 q1 → waits (.scRead q) ∧ (free → ∀ base m v i,
      s1.pages.counterDef (min 63 d.a0.toNat) = some (base, m) → s1.pages.counterAt base m = (v, i) →
      exec (.scRead q) s = .next (s1.complete k { data :=
        [BitVec.ofNat 18 v, BitVec.ofNat 18 (v / 2 ^ 18), BitVec.ofNat 18 i, BitVec.ofNat 18 (i / 2 ^ 18)] }))) ∧
    (ps.scrub = false → exec .scrubPassStart s =
      .next { s with pages := { ps with scrub := true, scrubPage := 0, scrubRefreshed := 0, scrubBad := 0 } }) ∧
    (ps.scrub = true → ps.bad ps.scrubPage = false →
      (ps.scrubPage < 8191 → ∀ weak,
        exec (.scrubRead false false) s = .next { s with pages := { ps with scrubPage := ps.scrubPage + 1 } } ∧
        ∃ s', exec (.scrubRead weak true) s = .next s' ∧
          s'.pages = { ps with scrubPage := ps.scrubPage + 1, scrubBad := ps.scrubBad + 1 }) ∧
      (ps.scrubPage = 8191 → ∃ s', exec (.scrubRead false false) s = .next s' ∧ s'.pages.scrub = false ∧ s'.pages.scrubAt = s.clock.sec ∧
        s'.pages.ref = ps.scrubRefreshed ∧ s'.pages.words = ps.words) ∧
      (s.pageQueued ps.scrubPage = false → ready → ps.scrubPage < 8191 → ∃ s' j, exec (.scrubRead true false) s = .next s' ∧
        s'.pages.jobs = ps.jobs ++ [j] ∧ j.work = .refresh ps.scrubPage ∧ j.owner = 0 ∧ s'.pages.busy = true ∧
        s'.pages.scrubRefreshed = ps.scrubRefreshed + 1 ∧ s'.pages.words = ps.words)) ∧
    (ps.appendDue = true →
      (∃ s', exec (.applicationSlotAppend false) s = .next s' ∧ s'.pages.appended = ps.appended + 1 ∧ s'.pages.appSlot = ps.appSlot ∧
        s'.pages.image.program = s.work.program ∧ s'.pages.image.forces = s.work.forces ∧ s'.pages.appendDue = false) ∧
      ∃ s', exec (.applicationSlotAppend true) s = .next s' ∧ s'.pages.appended = 0 ∧ s'.pages.appSlot = !ps.appSlot ∧
        s'.pages.image.program = s.work.program ∧ s'.pages.otherImage = some ps.image) ∧
    (s.archOn = true → s.arch.lstate = 5 → ∀ x rest, ps.unmirrored = x :: rest → exec (.mirrorPageCopy page ws) s =
      .next { s with pages := { ps with unmirrored := rest, mirrorOut := some (x, ps.page x) } }) ∧
    (s.archOn = true → s.arch.lstate = 2 ∨ s.arch.lstate = 3 → ready →
      let queued (c : Instr) (work : PageWork) (owed : Bool) : Prop := ∃ s' j, exec c s = .next s' ∧ s'.pages.jobs = ps.jobs ++ [j] ∧
        j.work = work ∧ j.forwarded = owed ∧ j.ticket = none ∧ s'.pages.busy = true ∧ s'.rings = s.rings
      (2048 ≤ page → page ≤ 8191 → ws.length = 64 → queued (.mirrorPageCopy page ws) (.words page 0 ws) false) ∧
      (∀ x y, x ≤ 8191 → queued (.forwardedWriteReceipt (.block x y ws)) (.block (2 * (x / 2)) y ws) true) ∧
      (∀ c m base num v i, ps.counterDef c = some (base, num) → ps.counterAt base num = (v, i) → v ≠ 2 ^ 36 - 1 →
        queued (.forwardedWriteReceipt (.increment c m)) (.increment c m) true)) ∧
    (s.archOn = true → ps.forwards = [fw] → fw.confirmed = false →
      (fw.own = none → exec .forwardedWriteConfirmation s =
        .next { s with pages := { ps with forwards := [{ fw with confirmed := true }] } }) ∧
      (∀ m e, fw.own = some (m, e) → exec .forwardedWriteConfirmation s =
        .next (({ s with pages := { ps with forwards := [] } } : State).complete fw.ticket { len := some m, detail := e })))

/-! ## Links, arch, networks and channels -/

/-- R200, R203, R209–R214, R230–R233, R240: link up, turned and relayed copies; an accepted I-block gives its station's OFFSET and
DELTA, a segment with a bad FCS only counts; an epoch above the Keystone's makes it stale. A Lintel link polls one rack at a time.
R225, R228–R230: a service request of the lease holder waits for its link; one at a time is outstanding, and its frame names it by
its TAG; a reply that matches completes it, and the third time without one completes it NORESP. SUBST_SET writes the station's
pages; STATION_STATUS answers 8 words. In an arch the partner's end sends the retries. Clauses in which a command leaves the state
as it is because its event cannot occur there are the model's choice (log entry 3). It follows the model's readings in log entries
50, 52. It follows the model's readings in log entries 90, 91, 92. -/
def Obligations.StationLinks : Prop :=
  (∀ (s : State) (k : Nat) (r : Relay) (f : IForm) (b : IBlock) (c : OForm) (o : OBlock) (m : Nat) (ws : List Word), k ≤ 15 →
     let x := s.link k
     let i := 16 * k + b.pos
     let st := s.station i
     (∀ full, exec (.portLinkUp k full) s = .next (s.setLink k { x with up := full && s.portsOn })) ∧
     (s.linkRing k = true → c.etype = s.slEtype → x.up = true →
       (s.portsOn = true → s.md.mode.ticks = true →
         let form := iFormWords c.header c.blocks
         exec (.portTurn k ⟨true, c⟩) s = .next (s.setLink k { x with turned := true, turnFrame := form, wire := s.wireOf k form }) ∧
         (c.blocks = [o] → ∃ head, form = [head ++ [BitVec.ofNat 18 (o.pos * 2 ^ 14 + o.iwords), 0, 0, 0] ++
           List.replicate (4 * ((o.iwords + 3) / 4)) 0] ∧ head.length = 8)) ∧
       exec (.portTurn k ⟨false, c⟩) s = .next (s.setLink k { x with up := false })) ∧
     (s.md.mode = .track → s.linkNative k = true →
       (x.relayIn = none → exec (.relayedCopyEmission k) s =
         .next { s with arch := { s.arch with relmiss := true, relayMissed := true } }) ∧
       (x.relayIn = some r →
         let own := r.blocks.map fun o => { o with offset := (s.station (16 * k + o.pos)).offset }
         let fr := oFormWords (s.header k r.safe r.tick r.epoch) own
         exec (.relayedCopyEmission k) s = .next (s.setLink k { x with frame := fr, wire := s.wireOf k fr, relayIn := none }))) ∧
     (s.md.mode = .track → s.archOn = true → r.link = k → ∃ s', exec (.relayReceipt r) s = .next s' ∧
       s'.link k = { x with relayIn := some r } ∧ s'.arch = { s.arch with peerEpoch := max s.arch.peerEpoch r.epoch } ∧
       s'.work = s.work ∧ (r.blocks = [o] →
         s'.station (16 * k + o.pos) = { s.station (16 * k + o.pos) with offsetFar := o.offset })) ∧
     (s.md.mode.ticks = true → f.etype = s.slEtype → (if f.forwarded then s.archOn else s.linkNative k) = true → f.blocks = [b] →
       ∃ s', exec (.iFormReceipt k f) s = .next s' ∧
       (s'.link k).forms = (if s.arch.tinPassed then x.forms else x.forms ++ [f]) ∧
       (s'.link k).forwarded = (if s.archOn && !f.forwarded then x.forwarded ++ [f] else x.forwarded) ∧
       (s'.link k).late = (x.late || f.late) ∧ (s'.link k).fcsErr = (x.fcsErr || !f.fcsOk) ∧
       (∀ j, j ≠ i → s'.station j = s.station j) ∧ s'.work = s.work ∧
       (f.fcsOk = false → s'.station i = { st with badFcs := (st.badFcs + 1) % 2 ^ 36 } ∧ s'.md = s.md) ∧
       (f.fcsOk = true → (s'.station i).present = st.present ∧ s'.arch.maxSepoch = max s.arch.maxSepoch b.sepoch ∧
         (b.valid = true → b.sepoch ≤ s.viewEpoch → (s'.station i).delta = b.delta ∧ s'.md = s.md ∧
           (f.forwarded = false → (s'.station i).offset = min 262143 (f.te + (f.tr - f.te - b.delta) / 2)) ∧
           (f.forwarded = true → (s'.station i).offset = st.offset)) ∧
         (b.valid = false ∨ s.viewEpoch < b.sepoch → (s'.station i).delta = st.delta ∧ (s'.station i).offset = st.offset) ∧
         (s.viewEpoch < b.sepoch → (s'.link k).stale = true ∧
           (s.md.mode = .run ∨ s.md.mode = .hold → s'.md = { s.md with staleDue := true })))) ∧
     (s.linkMode k = 1 → s.md.mode.ticks = true → x.polling = false → ∀ p, nextRack (s.positions k) x.rack = some p →
       exec (.lintelPoll k) s = .next ((s.setLink k { x with rack := p, polling := true }).setStation (16 * k + p)
         { s.station (16 * k + p) with polled := s.pollWords (16 * k + p) })) ∧
     (x.polling = true →
       let rack := 16 * k + x.rack
       exec (.lintelReplyTimeout k) s = .next ((s.setLink k { x with polling := false }).setStation rack
         { s.station rack with missed := (s.station rack).missed + 1 }) ∧
       (x.up = true → m + ws.length ≤ 256 → ∃ s', exec (.lintelReply k [(m, ws)]) s = .next s' ∧ (s'.link k).polling = false ∧
         s'.station rack = { s.station rack with missed := 0, replied := true } ∧
         (∀ j, j < ws.length → Tbl.get 0 (s'.link k).modules (256 * x.rack + m + j) = ws.getD j 0 &&& 0o177_777) ∧
         ∀ a, a < 256 * x.rack + m ∨ 256 * x.rack + m + ws.length ≤ a → Tbl.get 0 (s'.link k).modules a = Tbl.get 0 x.modules a))) ∧
  (∀ (s s1 : State) (q q1 : Req) (k at_ : Nat) (f : AcyclicFrame) (a : Acyclic) (call : AcyclicCall), k ≤ 15 →
     let t := ticketOf 1 q
     let d := q1.desc
     let i := min 255 d.a0.toNat
     let x := s.link k
     let w (n : Nat) : Word := BitVec.ofNat 18 n
     let service := bitsOf q.desc.a1 5 0
     let writes (n : Nat) : Prop := n = 3 ∨ n = 4
     (Taken s 1 0o060 (if bitsOf q.desc.a1 5 0 = 3 ∨ bitsOf q.desc.a1 5 0 = 4 then 2 else 1) q s1 q1 →
       let len := min 64 d.a3.toNat
       let l := s1.link (i / 16)
       (s1.holds = true → s1.linkMode (i / 16) = 2 → s1.md.mode.ticks = true →
         s1.acyclicFits (i / 16) service len (400 * (s1.tick.inwin + 10)) = true →
         let a : Acyclic := ⟨t, i % 16, service, min 511 d.a2.toNat, len, (List.range len).map fun j => q1.data.getD j 0, l.tag, 0, false⟩
         let asked := s1.setLink (i / 16) { l with waiting := l.waiting ++ [a], tag := (l.tag + 1) % 4096 }
         (¬ writes service → exec (.stationService q) s = .next asked) ∧
         (writes service → exec (.stationService q) s = .next (asked.changedBy (s1.credOf 1 q.origin) q1))) ∧
       (s1.holds = false ∨ s1.linkMode (i / 16) ≠ 2 → exec (.stationService q) s = .next (s1.complete t { status := 2 }))) ∧
     (Taken s 1 0o061 2 q s1 q1 → (s1.pages.jobs = [] ∧ s1.pages.busy = false) ∨ s1.pages.busy = true →
       let first := min 255 d.a1.toNat
       let n := min (max 1 (min 256 d.a2.toNat)) (256 - first)
       ∃ s' j, exec (.substSet q) s = .next s' ∧ s'.pages.jobs = s1.pages.jobs ++ [j] ∧ s'.pages.busy = true ∧ j.ticket = some t ∧
         s'.rings = s1.rings ∧
         j.work = .words (1024 + 4 * i + first / 64) (first % 64) ((List.range n).map fun l => q1.data.getD l 0)) ∧
     (Taken s 1 0o062 1 q s1 q1 →
       let st := s1.station i
       let e1 := s1.linkRing (i / 16) && s1.linkEnd (i / 16)
       exec (.stationStatus q) s = .next (s1.complete t { data := [w (if e1 then st.offsetFar else st.offset),
         w (if e1 then st.offset else st.offsetFar), w st.delta, st.b0, w st.dropouts, w (st.dropouts / 2 ^ 18), w st.badFcs,
         w (st.badFcs / 2 ^ 18)] })) ∧
     (s.md.mode.ticks = true → 400 * (s.tick.inwin + 10) ≤ at_ →
       let n := if a.service = 3 ∨ a.service = 4 then min a.len a.words.length else 0
       let sent (y : Link) : Prop := y.acyclicFrame.length = 8 + 4 * ((n + 3) / 4) ∧ (y.acyclicFrame.drop 1).take 7 =
         [w s.tickNumber, w (s.tickNumber / 2 ^ 18), w s.viewEpoch, w (s.viewEpoch / 2 ^ 18), w (a.pos * 2 ^ 14 + n % 128),
          w (a.service % 64 * 2 ^ 12 + a.tag % 4096), w (a.param * 2 ^ 9)]
       (s.holds = true → s.acyclicFits k a.service a.len at_ = true →
         (∀ rest, x.outstanding = none → x.waiting = a :: rest → ∃ s', exec (.acyclicRequest ⟨k, at_, none⟩) s = .next s' ∧
           (s'.link k).outstanding = some { a with out := true, tries := 1 } ∧ (s'.link k).waiting = rest ∧ sent (s'.link k) ∧
           s'.rings = s.rings) ∧
         (x.outstanding = some a → a.out = false → 0 < a.tries → ∃ s', exec (.acyclicRequest ⟨k, at_, none⟩) s = .next s' ∧
           (s'.link k).outstanding = some { a with out := true, tries := a.tries + 1 } ∧ (s'.link k).waiting = x.waiting ∧
           (s.archOn = false → sent (s'.link k)) ∧
           (s.archOn = true → (s'.link k).acyclicFrame = x.acyclicFrame ∧ ∃ c, (s'.link k).callOut = some c ∧ c.tag = a.tag ∧
             c.pos = a.pos ∧ c.service = a.service ∧ c.param = a.param)) ∧
         (x.outstanding = some a → a.out = true → exec (.acyclicRequest ⟨k, at_, none⟩) s = .next s)) ∧
       (s.holds = false → s.archOn = true → s.linkNative k = true →
         exec (.acyclicRequest ⟨k, at_, some call⟩) s = .next (s.sendAcyclic k call))) ∧
     (f.etype = s.slEtype →
       let h (i : Nat) : Word := f.words.getD i 0
       let status := bitsOf (h 7) 8 0
       let ended := s.setLink k { x with outstanding := none }
       (s.holds = true → x.outstanding = some a → a.out = true → bitsOf (h 0) 17 13 = 7 → bitsOf (h 0) 10 7 = k →
         bitsOf (h 5) 17 14 = a.pos → bitsOf (h 6) 11 0 = a.tag →
         (status = 0 → exec (.acyclicReply k true f) s =
           .next (ended.complete a.ticket { data := (f.words.drop 8).take (min 64 (bitsOf (h 5) 6 0)) })) ∧
         (status ≠ 0 → exec (.acyclicReply k true f) s = .next (ended.complete a.ticket { status := 2, detail := status }))) ∧
       (s.holds = false → s.archOn = true → exec (.acyclicReply k true f) s = .next (s.setLink k { x with replyOut := some f }))) ∧
     (x.outstanding = some a → a.out = true →
       let ended := s.setLink k { x with outstanding := none }
       (a.tries < 3 → exec (.acyclicTimeout k) s = .next (s.setLink k { x with outstanding := some { a with out := false } })) ∧
       (3 ≤ a.tries → exec (.acyclicTimeout k) s = .next (ended.complete a.ticket { status := 5 }))))

/-- R236–R239, R242, R244, R245, R260, R264: alive line, arch links, pairing, heartbeats, synchronisation and the health report.
Only a tracked partner makes a holder PAIRED; a lost or unpaired one leaves it ALONE. Clauses in which a command leaves the state
as it is because its event cannot occur there are the model's choice (log entry 3). -/
def Obligations.ArchPartners : Prop :=
  ∀ (s s1 : State) (q q1 : Req) (p : PairingFacts) (h : Heartbeat) (phase ms n : Nat) (b : Bool) (f : HealthFacts) (ws : List Word)
    (items : List SyncItem),
    let a := s.arch
    let k := ticketOf 0 q
    exec (.aliveInChange b) s = .next { s with arch := { a with aliveIn := b } } ∧
    exec (.archLinkDown true) s = .next { s with arch := { a with aup := a.aup, bup := false, paired := a.paired && a.aup } } ∧
    exec (.archLinkDown false) s = .next { s with arch := { a with aup := false, bup := a.bup, paired := a.paired && a.bup } } ∧
    (s.md.mode.powered = true → s.domainOn 2 = true →
      (p.linkA = true ∨ p.linkB = true →
        (∀ code, s.pairingFault p = some code → s.firmware.marked = false → ∃ s', exec (.pairing p) s = .next s' ∧ s'.arch.pairErr = code ∧
          s'.arch.paired = false ∧ s'.arch.aup = false ∧ s'.arch.bup = false ∧ s'.work = s.work ∧
          (a.lstate = 5 → s'.arch.lstate = 6 ∧ s'.arch.tracked = false) ∧ (a.lstate ≠ 5 → s'.arch.lstate = a.lstate) ∧
          (s.md.mode = .track → s'.md = { s.md with stopDue := true }) ∧ (s.md.mode ≠ .track → s'.md = s.md)) ∧
        (s.pairingFault p = none → ∃ s', exec (.pairing p) s = .next s' ∧ s'.arch.paired = true ∧ s'.arch.peerEpoch = p.epoch ∧
          s'.arch.aup = (a.aup || p.linkA) ∧ s'.arch.bup = (a.bup || p.linkB) ∧ s'.arch.lstate = a.lstate ∧ s'.md = s.md ∧
          s'.work = s.work)) ∧
      (p.verifies = false ∨ p.fingerprint ≠ s.arPeer → s.pairingFault p = some 1) ∧
      (p.verifies = true → p.fingerprint = s.arPeer → p.levelOk = true → s.inArch = false ∨ p.arch = false ∨ (if p.side then 1 else 0) = s.side →
        s.pairingFault p = some 3) ∧
      (s.aliveOut = true → ∃ w0, exec (.heartbeatSend phase) s = .next { s with arch := { a with beat :=
        [w0, BitVec.ofNat 18 (s.work.count % 2 ^ 36), BitVec.ofNat 18 (s.work.count % 2 ^ 36 / 2 ^ 18), BitVec.ofNat 18 (phase % 2 ^ 36),
         BitVec.ofNat 18 (phase % 2 ^ 36 / 2 ^ 18), BitVec.ofNat 18 (a.epoch % 2 ^ 18)] } }) ∧
      ((a.lstate = 2 ∨ a.lstate = 3) → h.lstate ≠ 0 → h.lstate ≠ 7 → a.ledgerDone = true → ∀ n, a.modeMark = some (2, n) →
        ∃ s', exec (.heartbeatReceipt b h) s = .next s' ∧ s'.arch.lstate = 4 ∧ s'.arch.takeover = some ⟨2, some n⟩ ∧ s'.work = s.work) ∧
      ((∀ n, a.modeMark ≠ some (2, n)) → ∃ s', exec (.heartbeatReceipt b h) s = .next s' ∧ s'.arch.heard = true ∧ s'.arch.peer = some h ∧ s'.md = s.md ∧ s'.work = s.work ∧
        s'.arch.epoch = a.epoch ∧ (a.lstate = 3 → s'.arch.lstate = 2) ∧ (a.lstate = 5 → h.lstate = 2 → s'.arch.lstate = 5) ∧
        (a.lstate = 5 → h.lstate = 0 ∨ h.lstate = 7 → s'.arch.lstate = 6 ∧ s'.arch.tracked = false) ∧
        a.peerEpoch ≤ s'.arch.peerEpoch ∧ s'.arch.peerEpoch % 2 ^ 18 = h.epl % 2 ^ 18)) ∧
    (a.lstate = 2 → exec .heartbeatSilence s = .next { s with arch := { a with lstate := 3 } }) ∧
    (a.lstate ≠ 2 → exec .heartbeatSilence s = .next s) ∧
    (s.md.mode ≠ .track → a.heard = true → ∃ s', exec .partnerLost s = .next s' ∧ s'.arch.heard = false ∧ s'.arch.electing = false ∧
      s'.md.mode = s.md.mode ∧ s'.work = s.work ∧ (a.lstate = 5 → s'.arch.lstate = 6) ∧
      (Tbl.wf {} s.locks = true → ∀ j, (s'.lock j).owner ≠ 4)) ∧
    (s.archOn = true → a.lstate = 6 →
      (s.partnerJoins = true → exec (.synchronisationPass items n) s = .next { s with
        arch := { a with passOut := s.passItems, dirtyLeft := some 0 }, persist := { s.persist with copyDirty := [] } }) ∧
      SyncItem.count s.work.count ∈ s.passItems ∧ SyncItem.program s.work.program ∈ s.passItems ∧
      (a.dirtyLeft = some 0 → s.cellsOpen = false → s.persist.copyDirty = [] → s.meterAgrees ws = true →
        ∃ s', exec (.synchronisationComplete ms ws) s = .next s' ∧ s'.arch.lstate = 5 ∧
        s'.arch.tracked = true ∧ s'.arch.syncMs = ms ∧ s'.md = s.md ∧ s'.work = s.work)) ∧
    (s.archOn = true → a.lstate = 1 →
      let m := s.work.mortar
      (∃ s', exec (.synchronisationPass [.count n] 7) s = .next s' ∧ s'.arch = { a with dirtyLeft := some 7 } ∧ s'.work.count = n ∧
        (a.dirtyLeft ≠ none → s'.work = { s.work with count := n }) ∧ (a.dirtyLeft = none → s'.work.mortar = {})) ∧
      (a.dirtyLeft = some 0 → s.cellsOpen = false →
        (s.meterAgrees ws = true → exec (.synchronisationComplete ms ws) s = .next { s with
          arch := { a with lstate := 2, tracked := true, syncDone := true, syncMs := ms, entries := [], ledgerDone := false }
          work := { s.work with pendingSets := [], mortar := { m with input := applyForces false m.inputField s.work.forces } } }) ∧
        (s.meterAgrees ws = false → ∃ s', exec (.synchronisationComplete ms ws) s = .next s' ∧ s'.arch = a ∧ s'.work = s.work)) ∧
      (a.dirtyLeft = some (n + 1) → exec (.synchronisationComplete ms ws) s = .next s)) ∧
    (s.md.mode.powered = true → s.recorder.open_ = true → ∃ s', exec (.healthReport f) s = .next s' ∧ s'.arch.report.length = 96 ∧
      s'.arch.reportSeq = (a.reportSeq + 1) % 2 ^ 36 ∧ s'.arch.report.getD 0 0 = BitVec.ofNat 18 a.reportSeq ∧ s'.work = s.work) ∧
    (a.paired = true → s.domainOn 2 = true → ws.length = 96 →
      exec (.healthReportReceipt ws) s = .next { s with arch := { a with peerReport := ws, peerAge := 0 } }) ∧
    (Taken s 0 0o070 1 q s1 q1 →
      (q1.desc.a0 = 0 → s1.arch.report ≠ [] → exec (.healthGet q) s = .next (s1.complete k { data := s1.arch.report })) ∧
      (q1.desc.a0 ≠ 0 → s1.arch.peerReport ≠ [] → s1.arch.peerAge ≤ 2 →
        exec (.healthGet q) s = .next (s1.complete k { data := s1.arch.peerReport })) ∧
      (q1.desc.a0 ≠ 0 → s1.arch.peerReport = [] ∨ 2 < s1.arch.peerAge →
        exec (.healthGet q) s = .next (s1.complete k { status := 2 })))

/-- R175, R239, R240, R243, R244, R247–R252, R255, R256: a tracked standby claims the lease at expiry with ALIVE_IN low, at a
release notice or a handover marker, with an epoch above every one it knows and of its own parity; with ALIVE_IN high it is LOST.
It acknowledges each ledger that checks, and takes over at the boundary (stated where the tick watchdog does not count it out
there). Clauses in which a command leaves the state as it is because its event cannot occur there are the model's choice (log
entry 3). It follows the model's readings in log entries 48, 49. -/
def Obligations.ArchLease : Prop :=
  ∀ (s : State) (e : LedgerEntry) (c : LedgerClose) (lag tx n : Nat) (i : BoundaryInputs) (g : Staged),
    let a := s.arch
    let known := max a.epoch (max a.peerEpoch a.maxSepoch)
    let claims (s' : State) (cause : Nat) : Prop := s'.arch.lstate = 4 ∧ s'.arch.tracked = false ∧
      (∃ t, s'.arch.takeover = some t ∧ t.cause = cause) ∧ s'.work = s.work ∧ s'.md.mode = s.md.mode ∧
      (known + 2 < 2 ^ 36 → known < s'.arch.epoch ∧ s'.arch.epoch ≤ known + 2 ∧ s'.arch.epoch % 2 = s.side ∧
        s'.md.stopDue = s.md.stopDue) ∧
      (2 ^ 36 ≤ known + 1 → s'.arch.epoch = a.epoch ∧ s'.md.stopDue = true)
    (s.md.mode = .track → a.lstate = 3 →
      (a.aliveIn = false → a.tinPassed = false → ∃ s', exec .leaseExpiry s = .next s' ∧ claims s' 0 ∧ s'.arch.heard = false) ∧
      (a.aliveIn = false → a.tinPassed = true → s.md.imageClosed = false →
        ∃ s', exec .leaseExpiry s = .next s' ∧ s'.arch.lstate = 4 ∧ s'.md.imageClosed = true ∧ s'.arch.heard = false) ∧
      (a.aliveIn = true → ∃ s', exec .leaseExpiry s = .next s' ∧ s'.arch.lstate = 7 ∧ s'.arch.epoch = a.epoch ∧
        s'.md.stopDue = true ∧ s'.md.mode = .track)) ∧
    (s.md.mode = .track → a.lstate = 1 → ∃ s', exec .leaseExpiry s = .next s' ∧ s'.arch.lstate = 1 ∧ s'.md.stopDue = true ∧
      s'.arch.heard = false ∧ s'.work = s.work) ∧
    (a.lstate = 2 → s.domainOn 2 = true → a.tinPassed = false → ∃ s', exec (.releaseNoticeReceipt n) s = .next s' ∧ claims s' 1) ∧
    (a.lstate ≠ 2 → exec (.releaseNoticeReceipt n) s = .next s) ∧
    (a.lstate = 5 → s.domainOn 2 = true → s.releaseDue = true → exec .releaseAckReceipt s = .next { s with arch := { a with
      release := some ((s.work.count % 2 ^ 36 + 1) % 2 ^ 36, true) } }) ∧
    (a.lstate = 2 ∨ a.lstate = 3 → s.domainOn 2 = true →
      let lacks := s.viewLacks (stationBitOf fun w => s.ledgerInput (0o077_020 + w)) || s.meterLacks
      let dropped : Work := { s.work with pendingSets := [] }
      (∃ s', exec (.dismissalReceipt n) s = .next s' ∧ s'.arch.lstate = 1 ∧ s'.arch.tracked = false ∧ s'.work = dropped ∧ s'.md = s.md) ∧
      exec (.ledgerEntryReceipt e) s = .next { s with arch := { a with entries := a.entries ++ [e] } } ∧
      (a.ledgerDone = false → s.closeChecks c = true → ∃ s', exec (.ledgerComplete c lag) s = .next s' ∧ s'.arch.entries = [] ∧
        (lacks = false → s'.arch.ackSent = some (c.tick, 0) ∧ s'.arch.ledgerDone = true ∧ s'.md.imageClosed = true ∧
          s'.work.pendingSets = [] ∧ s'.arch.lag = min 262143 lag) ∧
        (lacks = true → s'.arch.ackSent = some (c.tick, 1) ∧ s'.arch.lstate = 1 ∧ s'.arch.diverged = true ∧ s'.work = dropped)) ∧
      (c.tick ≠ s.work.count % 2 ^ 36 ∨ c.entries ≠ a.entries.length → exec (.ledgerComplete c lag) s = .next s)) ∧
    (a.lstate = 2 → s.domainOn 2 = true → a.ledgerDone = false → exec .ledgerRequest s =
      .next { s with arch := { a with entries := [], rerequested := true } }) ∧
    (a.lstate = 5 → s.domainOn 2 = true → a.ledgerSent = true →
      let lagged := min lag 262143
      let acked (good : Bool) : Arch := { a with lag := lagged, lagMax := max a.lagMax lagged, acked := good }
      exec .ledgerRequest s = .next { s with arch := { a with rerequested := true } } ∧
      exec (.ledgerAckReceipt true (s.work.count % 2 ^ 36) lag) s = .next { s with arch := acked true } ∧
      (∃ s', exec (.ledgerAckReceipt false (s.work.count % 2 ^ 36) lag) s = .next s' ∧ s'.work = s.work ∧ s'.md = s.md ∧
        s'.arch = { acked false with lstate := 6, tracked := false, dirtyLeft := none }) ∧
      (n ≠ s.work.count % 2 ^ 36 → exec (.ledgerAckReceipt true n lag) s = .next s)) ∧
    (s.md.mode = .track → s.domainOn 2 = true →
      let shown (st : Option Staged) : Prop :=
        exec (.armedTickReceipt (some n)) s = .next { s with online := { s.online with sched := true, atk := n % 2 ^ 36, staged := st } }
      (s.online.staged = none → shown none ∧
        exec (.armedTickReceipt none) s = .next { s with online := { s.online with sched := false } }) ∧
      (s.online.staged = some g → 3 ≤ g.state → shown (some { g with state := 4 }) ∧
        exec (.armedTickReceipt none) s = .next { s with online := { s.online with sched := false, staged := some { g with state := 3 } } })) ∧
    (s.md.mode = .track → a.lstate = 4 → s.watchdog.run = false ∨ s.watchdog.srcf = true → s.md.sealDue = false → s.md.safeDue = false → s.md.stopDue = false →
      s.online.staged = none → (∀ t, (s.tile t).closeDue = false) →
      ∃ s', exec (.takeoverBoundary tx i) s = .next s' ∧ s'.md.mode = .run ∧ s'.md.prev = .takeover ∧ s'.arch.lstate = 6 ∧
        s'.arch.tracked = false ∧ s'.arch.takeover = none ∧ s'.arch.takeovers = min 4095 (a.takeovers + 1) ∧ s'.arch.epoch = a.epoch ∧
        (a.relayMissed = false → s'.work.count = (s.work.count + 1) % 2 ^ 54))

/-- R300–R305, R334: a telegram received before T_in waits for the image, superseding an earlier one; no telegram for K ticks is a
timeout; due publications leave in table order; message data completes or waits for its reply; a receive ring's owner consumes no
more entries than were written. R305–R307, R310–R316: an inauguration begins with the change detected and ends when its confirmed
topology is applied at a boundary; the servo keeps LOCKED within ±0.4 µs, and a lost source holds over. Clauses in which a command
leaves the state as it is because its event cannot occur there are the model's choice (log entry 3). It follows the model's
readings in log entries 38, 43, 42. It follows the model's readings in log entries 98, 99. -/
def Obligations.TrainNetworks : Prop :=
  (∀ (s s1 : State) (q q1 : Req) (e m port : Nat) (data : List Nat) (ok : Bool) (v : Word),
     let k := ticketOf 8 q
     let d := q1.desc
     let tr := s.train
     let x := s.telegram e
     let u := tr.sub e
     (e ≤ 511 → x.k ≠ 0 → x.receives = true → s.telegramServed x = true → ∃ s' w, exec (.telegramReceipt e data ok) s = .next s' ∧
       s'.train.sub e = { u with waiting := some (w, ok || !x.sdt),
                                 superseded := if u.waiting.isSome then u.superseded + 1 else u.superseded } ∧
       (x.kind = 1 → w = BitVec.ofNat 18 (min x.len data.length) :: octetWords (data.take x.len)) ∧
       (x.kind ≠ 1 → w = BitVec.ofNat 18 (min x.dataWords data.length) :: data.map fun o => BitVec.ofNat 18 (o % 65536)) ∧
       (∀ j, j ≠ e → s'.train.sub j = tr.sub j) ∧ s'.work = s.work ∧ s'.arch.arrivals.getLast? = some (0, e)) ∧
     (e ≤ 511 → x.k ≠ 0 → x.receives = true → u.tmo = false → u.waiting = none → x.k ≤ u.age + 1 → x.train = false →
       exec (.subscriptionTimeout e) s = .next (s.setSub e { u with tmo := true, data := if x.zero then [] else u.data })) ∧
     (u.age + 1 < x.k → exec (.subscriptionTimeout e) s = .next s) ∧
     (∀ rest, tr.due = e :: rest →
       let block := (List.range x.dataWords).map fun i => Tbl.get 0 s.work.mortar.emitted (x.base + x.dataAt + i)
       (x.kind = 0 → s.sends = true → s.telegramServed x = true → exec (.telegramPublication e) s = .next { s with train := { tr with due := rest, published := some (e, block) } }) ∧
       ∀ j, j ≠ e → exec (.telegramPublication j) s = .next s) ∧
     (e ∈ usedEntries tr.table → x.kind = 2 → x.id % 4096 = port → s.telegramServed x = true → s.sends = true →
       (∀ j ∈ usedEntries tr.table, (s.telegram j).kind = 2 → (s.telegram j).id % 4096 = port → j = e) →
       let block := (List.range x.dataWords).map fun i => Tbl.get 0 s.work.mortar.emitted (x.base + x.dataAt + i) &&& 0o177_777
       exec (.mvbMasterFrame port) s = .next { s with train := { tr with answered := some (e, block) } }) ∧
     (s.domainOn 6 = true → s.tnCfg.getLsbD 10 = true →
       (tr.messages.full = true → exec (.messageDataReceipt data) s =
         .next { s with train := { tr with messagesLost := tr.messagesLost + 1 } }) ∧
       (tr.messages.full = false → ∃ s', exec (.messageDataReceipt data) s = .next s' ∧
         s'.train = { tr with messages := { tr.messages with pi := (tr.messages.pi + 1) % 65536, entries := tr.messages.entries ++ [octetWords data] } } ∧
         ((s.ring 8).owner = 1 → 8 ∈ s'.msix))) ∧
     (∀ r, tr.requests.find? (fun y => y.ticket.tag == r.ticket.tag) = some r →
       let ended : State := { s with train := { tr with requests := tr.requests.erase r } }
       exec (.messageDataReply r.ticket.tag data) s = .next (ended.complete r.ticket { data := octetWords data }) ∧
       exec (.mdReplyTimeout r.ticket.tag) s = .next (ended.complete r.ticket { status := 5 })) ∧
     ((∀ y ∈ tr.requests, y.ticket.tag ≠ v) → exec (.mdReplyTimeout v) s = .next s) ∧
     (Taken s 8 0o110 1 q s1 q1 →
       let id := (d.a1.toNat + d.a2.toNat * 2 ^ 18) % 2 ^ 32
       let octets := (q1.data.drop 1).take ((max 1 (min 4096 (q1.data.getD 0 0).toNat) + 1) / 2)
       (d.a0 = 0 → exec (.tnMdSend q) s =
         .next (({ s1 with train := { s1.train with notified := some (id, d.a3.toNat, octets) } } : State).complete k {})) ∧
       (d.a0 ≠ 0 → ∃ r, exec (.tnMdSend q) s = .next { s1 with train := { s1.train with requests := s1.train.requests ++ [r] } } ∧
         r.ticket = k ∧ r.comId = id ∧ r.address = d.a3.toNat ∧ r.octets = octets)) ∧
     (Taken s 8 0o112 2 q s1 q1 →
       let t := putEntries s1.train.settings (min 511 d.a0.toNat) (max 1 (min 64 d.a1.toNat)) q1.data
       (s1.tableFits t = true →
         exec (.tnTableSet q) s = .next ((({ s1 with train := { s1.train with settings := t } } : State).changedBy
           (s1.credOf 8 q.origin) q1).complete k {})) ∧
       (s1.tableFits t = false → exec (.tnTableSet q) s = .next (s1.complete k { status := 2, code := 8 }))) ∧
     (s.reaches m = true →
       let n (x : RxRingState) : Nat := min ((bitsOf v 15 0 + 65536 - x.ci) % 65536) ((x.pi + 65536 - x.ci) % 65536)
       let used (x : RxRingState) : RxRingState := { x with ci := (x.ci + n x) % 65536, entries := x.entries.drop (n x) }
       ((s.ring 2).owner = m → exec (.receiveDoorbell m .can v) s = .next { s with canRx := used s.canRx }) ∧
       ((s.ring 3).owner = m → exec (.receiveDoorbell m .serial v) s = .next { s with serialRx := used s.serialRx }) ∧
       ((s.ring 8).owner = m → exec (.receiveDoorbell m .message v) s =
         .next { s with train := { tr with messages := used tr.messages } }) ∧
       ((s.ring 8).owner ≠ m → exec (.receiveDoorbell m .message v) s = .next { s with ignored := (s.ignored + 1) % 2 ^ 18 }))) ∧
  (∀ (s s1 : State) (q q1 : Req) (t : Topology) (port : Nat) (off : Int) (b : Bool),
     let tr := s.train
     let servo (c : Instr) : Prop := ∃ s', exec c s = .next s' ∧ s'.train.offset = off ∧ s'.train.synced = true ∧ s'.work = s.work ∧
       (tr.tstate = 2 → off.natAbs ≤ 400 → s'.train.tstate = 2) ∧ (tr.tstate = 2 → 400 < off.natAbs → s'.train.tstate = 3) ∧
       (tr.tstate = 0 → s.tick.lock = true → s'.train.tstate = 1) ∧ (s.tick.lock = false → tr.tstate ≠ 2 → s'.train.tstate = tr.tstate) ∧
       (tr.tstate = 3 → s.tick.lock = true → s'.train.tstate = if tr.e.natAbs ≤ 250 then 2 else 1)
     (s.etbnOn = true →
       (∃ s', exec (.topologyChange port b) s = .next s' ∧ s'.train.inaug = true ∧ s'.train.inaugShown = false ∧
         s'.train.applied = tr.applied ∧ (port = 1 → s'.train.etb1 = b) ∧ (port = 2 → s'.train.etb2 = b) ∧ s'.work = s.work) ∧
       (∃ s', exec (.topologyConfirmation t) s = .next s' ∧ s'.train = { tr with confirmed := some t } ∧ s'.work = s.work)) ∧
     (Taken s 8 0o111 1 q s1 q1 →
       (s1.train.applied = none → exec (.tnTopoGet q) s = .next (s1.complete (ticketOf 8 q) {})) ∧
       (s1.train.applied = some t → t.consists ≤ 63 → t.directory.length = 8 * t.consists →
         exec (.tnTopoGet q) s = .next (s1.complete (ticketOf 8 q) { data := t.directory }))) ∧
     (s.domainOn 6 = true →
       (s.timeSource = 1 → servo (.ptpSync off)) ∧ (s.timeSource = 2 → servo (.ppsIn off)) ∧
       (s.timeSource = 0 → exec (.ptpSync off) s = .next s) ∧
       (s.timeSource ≠ 2 → ∃ s', exec (.ppsIn off) s = .next s' ∧ s'.train.ppsSeen = true ∧ s'.train.tstate = tr.tstate) ∧
       exec (.ppsOut b) s = .next { s with train := { tr with ppsOut := b && (tr.tstate == 2 || s.tnTsrc.getLsbD 14) } } ∧
       (bitsOf s.tnCfg 15 14 ≠ 0 → ∃ s', exec (.mrpRingStateChange b) s = .next s' ∧ s'.train = { tr with mrp := if b then 1 else 2 } ∧
         s'.work = s.work) ∧
       (s.tnCfg.getLsbD 11 = true → ∃ s', exec (.mvbLineSwitchover b) s = .next s' ∧ s'.train = { tr with mvbLineB := b } ∧
         s'.work = s.work)) ∧
     (∃ s', exec .timeSourceLoss s = .next s' ∧ s'.train.synced = false ∧ (tr.tstate = 2 → s'.train.tstate = 3) ∧
       (tr.tstate ≠ 2 → s'.train.tstate = tr.tstate) ∧ s'.work = s.work))

/-- R318, R320–R322, R324–R328: a frame enters a free transmit buffer and completes when it has been sent, aborted or lost to
bus-off; error counts move the channel between active, passive and bus-off; a received frame is stamped into the receive ring.
R324, R328–R334: a serial channel sends one transmission after another; an aborted one completes with what it sent; a received
frame's errors stand in the status. A write of EN = 0 aborts a channel and keeps its other settings. Clauses in which a command
leaves the state as it is because its event cannot occur there are the model's choice (log entry 3). It follows the model's
readings in log entry 44. It follows the model's readings in log entries 101, 102, 103. -/
def Obligations.BusChannels : Prop :=
  (∀ (s s1 : State) (q q1 : Req) (c step off : Nat) (f : CanTx) (g : CanFrame), c ≤ 7 →
     let k := ticketOf 2 q
     let d := q1.desc
     let n := bitsOf d.a0 2 0
     let x := s.can c
     let y := s1.can n
     (16 ≤ (s.can (bitsOf q.desc.a0 2 0)).pending.length → exec (.canTx q) s = .next s) ∧
     (Taken s 2 0o120 1 q s1 q1 → (s.can n).pending.length < 16 →
       (s1.canRuns n = true → s1.canListen n = false → s1.md.mode ≠ .track → y.state ≠ 2 →
         ∃ f : CanTx, f.ticket = k ∧ f.ide = d.a0.getLsbD 3 ∧ f.dlc = bitsOf d.a0 11 8 ∧ f.fdf = (d.a0.getLsbD 5 && s1.canFd n) ∧
           f.oneshot = d.a0.getLsbD 7 ∧ f.echo = d.a0.getLsbD 12 ∧ f.aborting = false ∧
           f.id = min (if d.a0.getLsbD 3 then 2 ^ 29 - 1 else 2047) (d.a1.toNat + d.a2.toNat * 2 ^ 18) ∧
           exec (.canTx q) s = .next ((s1.setCan n { y with pending := y.pending ++ [f] }).driveCan n) ∧
           (s1.canTurns n = false → y.pending = [] → y.buffers = [] → y.sending = none →
             exec (.canTx q) s = .next (s1.setCan n { y with buffers := [(0, some f)], sending := some 0 }))) ∧
       (s1.canRuns n = false ∨ s1.canListen n = true ∨ s1.md.mode = .track → exec (.canTx q) s = .next (s1.complete k { status := 2 })) ∧
       (s1.canRuns n = true → s1.canListen n = false → s1.md.mode ≠ .track → y.state = 2 →
         exec (.canTx q) s = .next (s1.complete k { status := 6 }))) ∧
     (Taken s 2 0o121 1 q s1 q1 →
       (y.sending = none → exec (.canAbort q) s =
         .next (((s1.setCan n { y with pending := [], buffers := [], sendTurn := y.loadTurn }).completeFrames 4 y.frames).complete k {})) ∧
       (∀ b, y.sending = some b → ∃ s2 : State, exec (.canAbort q) s = .next (s2.complete k {}) ∧ (s2.can n).pending = [] ∧
         (s2.can n).sending = some b ∧ (s2.can n).buffer b = (y.buffer b).map (fun f => { f with aborting := true }) ∧
         ∀ j, j ≠ b → (s2.can n).buffer j = none)) ∧
     (Taken s 2 0o122 1 q s1 q1 →
       (y.state = 2 → exec (.canRecover q) s = .next ((s1.setCan n { y with recovering := true }).complete k {})) ∧
       (y.state ≠ 2 → exec (.canRecover q) s = .next (s1.complete k {}))) ∧
     (∀ b, x.sending = some b → x.buffer b = some f →
       let ends (ok : Bool) (status detail : Nat) : Prop := ∃ s', exec (.canFrameSent c ok off) s = .next s' ∧ s'.work = s.work ∧
         s'.rings = (s.complete f.ticket { status := status, detail := detail, len := some f.words.length }).rings ∧
         (s'.can c).tec = (if ok then min 511 (x.tec - 1) else x.tec) ∧
         (x.pending = [] → (s'.can c).buffer b = none ∧ (s'.can c).sending ≠ some b)
       (f.aborting = false → ends true 0 b) ∧
       (f.aborting = true → ends true 4 (b + 2 ^ 11) ∧ ends false 4 b) ∧
       (f.aborting = false → f.oneshot = true → ends false 7 b) ∧
       (f.aborting = false → f.oneshot = false →
         exec (.canFrameSent c false off) s = .next ((s.setCan c { x with sending := none }).driveCan c))) ∧
     (s.canRuns c = true → x.state ≠ 2 →
       (∃ s', exec (.canBusError c true step off) s = .next s' ∧ (s'.can c).tec = min 511 (x.tec + step) ∧
         (s'.can c).state = (if 127 < x.tec + step ∨ 127 < x.rec_ then 1 else 0) ∧ s'.work = s.work ∧ s'.rings = s.rings) ∧
       (∃ s', exec (.canBusError c false step off) s = .next s' ∧ (s'.can c).rec_ = min 511 (x.rec_ + step) ∧
         (s'.can c).tec = min 511 x.tec) ∧
       (∃ s', exec (.busOff c off) s = .next s' ∧ (s'.can c).state = 2 ∧ (s'.can c).pending = [] ∧ (s'.can c).buffers = [] ∧
         256 ≤ (s'.can c).tec ∧ (s'.can c).recovering = s.canAutoRec c ∧ s'.rings = (s.completeFrames 6 x.frames).rings) ∧
       (g.fdf = true → s.canFd c = false → s.canListen c = false →
         exec (.canFrameReceived c g off) s = .next (s.setCan c { x with errorFrames := x.errorFrames + 1 })) ∧
       (g.fdf = false ∨ s.canFd c = true → s.canRx.entries.length + 3 ≤ s.canRx.size →
         ∃ s' l e, exec (.canFrameReceived c g off) s = .next s' ∧ s'.canRx.entries = s.canRx.entries ++ l ++ [e] ∧ e.length = 40 ∧
           e.getD 1 0 = BitVec.ofNat 18 (g.id % 2 ^ 29) ∧ e.getD 2 0 = BitVec.ofNat 18 (g.id % 2 ^ 29 / 2 ^ 18) ∧
           e.getD 3 0 = BitVec.ofNat 18 (if g.rtr then 0 else min 64 g.octets.length) ∧
           s'.canRx.pi = (s.canRx.pi + l.length + 1) % 65536 ∧ s'.work = s.work ∧
           (x.rec_ ≤ 127 → (s'.can c).rec_ = min 511 (x.rec_ - 1)) ∧ (127 < x.rec_ → 119 ≤ (s'.can c).rec_ ∧ (s'.can c).rec_ ≤ 127) ∧
           (x.state = 0 → x.tec < 96 → x.rec_ < 96 → x.unreported = 0 →
             l = [] ∧ (e.getD 0 0).getLsbD 17 = decide (s.canRx.pi / s.canRx.size % 2 = 0)))) ∧
     (s.canRuns c = true → x.state = 2 → x.recovering = true → ∃ s', exec (.busOffRecovered c off) s = .next s' ∧
       (s'.can c).state = 0 ∧ (s'.can c).tec = 0 ∧ (s'.can c).rec_ = 0 ∧ (s'.can c).recovering = false)) ∧
  (∀ (s s1 : State) (q q1 : Req) (m c sent off : Nat) (id : Option Nat) (t : SerTx) (f : SerialFrame), c ≤ 7 →
     let k := ticketOf 3 q
     let d := q1.desc
     let n := bitsOf d.a0 2 0
     let x := s.serial c
     let y := s1.serial n
     (Taken s 3 0o130 1 q s1 q1 →
       (s1.serRuns n = true → s1.md.mode ≠ .track → ∃ t : SerTx, t.ticket = k ∧ t.count = max 1 (min 511 d.a1.toNat) ∧ t.aborting = false ∧
         t.echo = d.a0.getLsbD 3 ∧ t.words = (List.range ((t.count + 1) / 2)).map (fun i => q1.data.getD i 0) ∧
         (y.active = none → exec (.serTx q) s = .next (s1.setSerial n { y with active := some t })) ∧
         (y.active ≠ none → exec (.serTx q) s = .next (s1.setSerial n { y with pending := y.pending ++ [t] }))) ∧
       (s1.serRuns n = false ∨ s1.md.mode = .track → exec (.serTx q) s = .next (s1.complete k { status := 2 }))) ∧
     (Taken s 3 0o131 1 q s1 q1 → exec (.serAbort q) s =
       .next (((s1.setSerial n { y with pending := [], active := y.active.map fun t => { t with aborting := true } }).completeAll
         { status := 4, len := some 0 } (y.pending.map fun t => t.ticket)).complete k {})) ∧
     (x.active = some t →
       let next := s.setSerial c { x with active := x.pending.head?, pending := x.pending.drop 1 }
       (t.aborting = false → t.echo = false → exec (.serialTxDone c sent off) s =
         .next (next.complete t.ticket { len := some ((t.count + 1) / 2) })) ∧
       (t.aborting = true → t.echo = false → exec (.serialTxDone c sent off) s =
         .next (next.complete t.ticket { status := 4, len := some ((min sent t.count + 1) / 2) })) ∧
       (t.aborting = false → t.echo = true → ∃ s', exec (.serialTxDone c sent off) s = .next s' ∧ s'.work = s.work ∧
         s'.rings = (s.complete t.ticket { len := some ((t.count + 1) / 2) }).rings ∧ (s'.serial c).active = x.pending.head?)) ∧
     (x.active = none → exec (.serialTxDone c sent off) s = .next s) ∧
     (s.serRuns c = true → ∃ s', exec (.serialFrameReceived c f off) s = .next s' ∧ (s'.serial c).ferr = (x.ferr || f.ferr) ∧
       (s'.serial c).perr = (x.perr || f.perr) ∧ (s'.serial c).brk = (x.brk || f.brk) ∧ (s'.serial c).active = x.active ∧
       s'.work = s.work ∧ s'.rings = s.rings ∧
       (s.serialRx.full = false → 1 ≤ f.chars.length → f.chars.length ≤ 64 → s'.serialRx.entries.length = s.serialRx.entries.length + 1)) ∧
     (s.reaches m = true → 2 ≤ (s.writer m id).right →
       (s.canEn c = true → ∃ s', exec (.channelDisable m id false c) s = .next s' ∧ s'.canEn c = false ∧ (s'.can c).pending = [] ∧
         s'.canFd c = s.canFd c ∧ s'.canTurns c = s.canTurns c) ∧
       (s.serEn c = true → ∃ s', exec (.channelDisable m id true c) s = .next s' ∧ s'.serEn c = false ∧ (s'.serial c).pending = [])))

/-! ## The island, metering, identity -/

/-- R336–R348, R352: in every cycle an output is on only while the island runs a confirmed block, the output has no fault and
every function of its mask is fulfilled, and a function is fulfilled only while its pair is closed and has no fault. A readback
that disagrees, a dark test that fails and a restart switch outputs off. Clauses in which a command leaves the state as it is
because its event cannot occur there are the model's choice (log entry 3). It follows the model's readings in log entry 45. -/
def Obligations.SafetyIslandCycle : Prop :=
  ∀ (s : State) (i : IslandInputs) (ch k f : Nat) (b : Bool), s.islandRuns = true → ch < 16 → k < 4 → f < 8 →
    let x := s.island
    let o := x.out k
    (∃ s', exec (.islandCycle i) s = .next s' ∧ s'.island.cycles = (x.cycles + 1) % 2 ^ 36 ∧ s'.work = s.work ∧ s'.md = s.md ∧
      ((s'.island.out k).on = true →
        let w := s'.island.cfg.getD (28 + k) 0
        s'.island.istate = 2 ∧ (s'.island.out k).faults = 0 ∧ w.getLsbD 17 = true ∧ (w.getLsbD 16 = true → s'.enables.testBit k = true) ∧
        bitsOf w 15 8 ≠ 0 ∧ ∀ f, f < 8 → w.getLsbD (8 + f) = true → (s'.island.fn f).res = true) ∧
      ((s'.island.fn f).res = true → s'.island.istate = 2 ∧ s'.island.closed (fnCfg s'.island.cfg f).pair1 = true ∧
        s'.island.pairBad (fnCfg s'.island.cfg f).pair1 = false) ∧
      (i.high.testBit k = true ∨ i.sovOk = false → (s'.island.out k).on = false ∧ (s'.island.out k).faults ≠ 0) ∧
      (x.activateDue = true → (s'.island.out k).on = false)) ∧
    (∃ s', exec (.safetyInputFilter ch b) s = .next s' ∧ s'.island.inputs.testBit ch = b ∧
      (∀ j, j ≠ ch → s'.island.inputs.testBit j = x.inputs.testBit j) ∧ s'.island = { x with inputs := s'.island.inputs }) ∧
    exec (.darkTest k true) s = .next s ∧
    (o.on = true → ∃ s', exec (.darkTest k false) s = .next s' ∧ (s'.island.out k).on = false ∧
      (s'.island.out k).faults.testBit 7 = true ∧ ∀ j, j ≠ k → s'.island.out j = x.out j) ∧
    (let c := s.channel 31
     c.bind.usable s.tileCount = true → c.dirY.go = true → ∃ s', exec .enablesMessage s = .next s' ∧ ((s'.channel 31).dirY).go = false ∧
      s'.island.message = [Tbl.get 0 c.dirY.msg 0, Tbl.get 0 c.dirY.msg 1, Tbl.get 0 c.dirY.msg 2] ∧ s'.island.entmo = false ∧
      s'.island.seq = c.dirY.seq ∧ s'.work = s.work) ∧
    (s.md.mode = .run ∨ s.md.mode = .takeover ∨ s.md.mode = .track →
      exec .enableTimeout s = .next { s with island := { x with entmo := true } }) ∧
    (s.md.mode = .stop → exec .enableTimeout s = .next s ∧ s.enables = 0) ∧
    (let recent := x.recent.filter fun n => decide (x.cycles - n < 1800000)
     ∃ s', exec .islandRestart s = .next s' ∧ (s'.island.out k).on = false ∧ s'.island.restarts = min 262143 (x.restarts + 1) ∧
      s'.island.istate = (if 2 ≤ recent.length then 3 else 0) ∧ s'.island.block = x.block ∧ s'.island.staged = none ∧
      s'.work = s.work ∧ (Tbl.wf {} s.locks = true → ∀ j, (s'.lock j).owner ≠ 2))

/-- R343, R357–R360, R362, R376: a block is staged only in Stop and only if every word of it is acceptable; it becomes active when
the service port confirms its check value; an acknowledgement clears a dark-test fault. The parameter and field status reads. It
follows the model's readings in log entry 45. It follows the model's readings in log entry 104. -/
def Obligations.SafetyCommands : Prop :=
  ∀ (s s1 : State) (q q1 : Req) (b : List Word) (j : Nat) (measured : List Nat), j < 32 →
    let k := ticketOf 0 q
    let d := q1.desc
    let x := s1.island
    let refused (n : Nat) : Out := .next (s1.complete k { status := 2, detail := n })
    (Taken s 0 0o140 2 q s1 q1 →
      let b := (List.range 32).map fun i => q1.data.getD i 0
      (s1.md.mode ≠ .stop ∨ s1.islandRuns = false → exec (.safeParamSet q) s = refused 0) ∧
      (s1.md.mode = .stop → s1.islandRuns = true →
        (∀ i, blockFault b = some i → exec (.safeParamSet q) s = refused i) ∧
        (blockFault b = none → ∃ s2 : State, exec (.safeParamSet q) s = .next (s2.complete k {}) ∧ s2.rings = s1.rings ∧
          s2.island = { x with staged := some b, activateDue := false } ∧ s2.work = s1.work))) ∧
    (Taken s 0 0o141 2 q s1 q1 →
      (∀ id, q1.origin = .session id →
        (s1.md.mode = .stop → s1.islandRuns = true → x.staged = some b → d.a1 ++ d.a0 = blockCheck b →
          exec (.safeConfirm q) s = .next ((({ s1 with island := { x with activateDue := true } } : State).changedBy
            (s1.credOf 0 q.origin) q1).complete k {})) ∧
        (x.staged = some b → d.a1 ++ d.a0 ≠ blockCheck b → exec (.safeConfirm q) s = refused 0) ∧
        (s1.md.mode ≠ .stop ∨ x.staged = none → exec (.safeConfirm q) s = refused 0)) ∧
      (∀ slot, q1.origin = .ring slot → exec (.safeConfirm q) s = .next (s1.complete k { status := 1 }))) ∧
    (Taken s 0 0o142 1 q s1 q1 → s1.islandRuns = true →
      ∃ s2 : State, exec (.safeAck q) s = .next (s2.complete k {}) ∧ s2.rings = s1.rings ∧ s2.island.block = x.block ∧
        s2.island.fns = x.fns ∧ s2.island.inputs = x.inputs ∧ s2.work = s1.work ∧
        ∀ o, o < 4 → (s2.island.out o).faults.testBit 7 = false ∧ (s2.island.out o).on = (x.out o).on ∧
          (x.last.high.testBit o = true → (s2.island.out o).faults.testBit 5 = (x.out o).faults.testBit 5)) ∧
    (Taken s 0 0o143 1 q s1 q1 →
      (d.a0 = 0 → x.block = some b → exec (.safeParamGet q) s = .next (s1.complete k { data := b })) ∧
      (d.a0 ≠ 0 → x.staged = some b → exec (.safeParamGet q) s = .next (s1.complete k { data := b }))) ∧
    (Taken s 0 0o150 1 q s1 q1 → ∃ l : List Word, exec (.fieldStatus q measured) s = .next (s1.complete k { data := l }) ∧ l.length = 50 ∧
      l.getD j 0 = BitVec.ofNat 18 (s1.field.cls j * 2 ^ 15 + min 511 (measured.getD j 0)) ∧
      (j < 16 → (l.getD (32 + j) 0).getLsbD 14 = (s1.field.out j).commanded) ∧
      l.getD 48 0 = BitVec.ofNat 18 (min 262143 (measured.getD 48 0)))

/-- R382–R388, R391, R393, R397: a sample joins those waiting for the tick; each sample counted credits one active, one reactive
and one apparent accumulator, by the signs of the window sums; MT_SET writes them in Stop and only on the Keystone that decides.
Clauses in which a command leaves the state as it is because its event cannot occur there are the model's choice (log entry 3). It
follows the model's readings in log entries 9, 47. It follows the model's readings in log entry 106. -/
def Obligations.EnergyMeasured : Prop :=
  ∀ (s s1 : State) (q q1 : Req) (x : MeterSample) (p r : Int) (i : Nat), i ≤ 1 →
    let k := ticketOf 6 q
    let d := s.modulators
    let m := s.work.meter
    let u := m.pulse i
    let good (f : BitVec 16) : Prop := frameSync f = true ∧ (∀ j, j < 6 → cellValid f (2 + j) = true) ∧ frameParity f = true
    (s.domainOn 9 = true → ∃ s', exec (.meteringSample x) s = .next s' ∧ s'.modulators.index = (d.index + 1) % 2 ^ 35 ∧
      s'.modulators.hist.length = min 1024 (d.hist.length + 1) ∧ s'.work.meter.acc = m.acc ∧ s'.work.mem = s.work.mem ∧
      s'.modulators.skip = (if s.md.mode.ticks then d.skip - 1 else d.skip) ∧
      (d.skip ≠ 0 ∨ s.md.mode.ticks = false → s'.modulators.pending = d.pending) ∧
      (d.skip = 0 → s.md.mode.ticks = true → ∃ y, s'.modulators.pending = d.pending ++ [y] ∧ y.values.length = 7 ∧
        (∀ v ∈ y.values, -131071 ≤ v ∧ v ≤ 131071) ∧ (d.linkA = false ∨ d.linkB = false → y.bad = true) ∧
        (y.late = true ↔ s.md.imageClosed = false ∧ 1000 * s.tick.inwin < x.off + 2000)) ∧
      (∀ j, j < 256 → (¬ good (x.framesA.getD j 0) ∨ ¬ good (x.framesB.getD j 0)) → s'.modulators.ferr = true ∧
        (d.skip = 0 → s.md.mode.ticks = true → ∃ y, s'.modulators.pending = d.pending ++ [y] ∧ y.bad = true)) ∧
      ((∀ j, j < 256 → good (x.framesA.getD j 0) ∧ good (x.framesB.getD j 0)) → s'.modulators.ferr = d.ferr ∧
        (d.linkA = true → d.linkB = true → (∀ f ∈ d.frames, f.testBit 7 = false) → d.skip = 0 → s.md.mode.ticks = true →
          ∃ y, s'.modulators.pending = d.pending ++ [y] ∧ y.bad = false))) ∧
    (s.domainOn 9 = false → exec (.meteringSample x) s = .next s) ∧
    (∀ good, s.domainOn 9 = true →
      let c (l : Nat) : Instr := if good then .modulatorLinkRegain l else .modulatorLinkLoss l
      (d.linkA ≠ good → ∃ s', exec (c 0) s = .next s' ∧ s'.modulators = { d with linkA := good, ferr := d.ferr || !good } ∧
        s'.work = s.work) ∧
      (d.linkB ≠ good → ∃ s', exec (c 1) s = .next s' ∧ s'.modulators = { d with linkB := good, ferr := d.ferr || !good } ∧
        s'.work = s.work) ∧
      (d.linkA = good → exec (c 0) s = .next s) ∧ (d.linkB = good → exec (c 1) s = .next s)) ∧
    (∀ n, u.ticks = some n →
      (2 * s.pulseTicks i ≤ n + 1 → ∃ s', exec (.pulseEnd i) s = .next s' ∧ s'.work.meter.pulse i = { u with ticks := none } ∧
        s'.work.meter.pulse (1 - i) = m.pulse (1 - i) ∧ s'.work.meter.acc = m.acc) ∧
      (n + 1 < 2 * s.pulseTicks i → exec (.pulseEnd i) s = .next s)) ∧
    (let m' := (s.creditSums p r).work.meter
     let e (p : Int) (a : Nat) : Prop := let f := p.natAbs * 2 ^ 36 / (1000 * 131071 * 131071 * 800 * 28800)
       m'.accum a = (m.accum a + f) % 2 ^ 108 ∨ m'.accum a = (m.accum a + f + 1) % 2 ^ 108
     let others (l : List Nat) : Prop := ∀ a, a < 8 → a ∉ l → m'.accum a = m.accum a
     (0 ≤ p → 0 ≤ r → e p 0 ∧ e r 2 ∧ others [0, 2, 6]) ∧ (p < 0 → 0 ≤ r → e p 1 ∧ e r 3 ∧ others [1, 3, 7]) ∧
     (p < 0 → r < 0 → e p 1 ∧ e r 4 ∧ others [1, 4, 7]) ∧ (0 ≤ p → r < 0 → e p 0 ∧ e r 5 ∧ others [0, 5, 6])) ∧
    (Taken s 6 0o160 1 q s1 q1 →
      let m := s1.work.meter
      let quad (a : Nat) : List Word := let v := m.accum a / 2 ^ 36
        [BitVec.ofNat 18 v, BitVec.ofNat 18 (v / 2 ^ 18), BitVec.ofNat 18 (v / 2 ^ 36), BitVec.ofNat 18 (v / 2 ^ 54)]
      let l := quad 0 ++ quad 1 ++ quad 2 ++ quad 3 ++ quad 4 ++ quad 5 ++ quad 6 ++ quad 7 ++ [BitVec.ofNat 18 m.boundary,
        BitVec.ofNat 18 (m.boundary / 2 ^ 18), BitVec.ofNat 18 m.tick, BitVec.ofNat 18 (m.tick / 2 ^ 18)]
      exec (.mtRead q) s = .next (s1.complete k { data := l })) ∧
    (Taken s 6 0o161 1 q s1 q1 → ∃ l : List (List Word), exec (.mtLogRead q) s = .next (s1.complete k { data := l.flatMap id }) ∧
      l.length ≤ 16 ∧ ∀ ws ∈ l, ∃ n, q1.desc.a0.toNat + q1.desc.a1.toNat * 2 ^ 18 ≤ n ∧ n < s1.work.meter.seq ∧
        Tbl.get none s1.work.meter.log (n % 8192) = some ws) ∧
    (Taken s 6 0o162 2 q s1 q1 →
      (s1.md.mode = .stop → s1.partnerHolds = false → ∃ s2 : State, exec (.mtSet q) s = .next (s2.complete k {}) ∧
        s2.rings = s1.rings ∧ s2.work.mem = s1.work.mem ∧ s2.work.meter.seq = s1.work.meter.seq ∧
        ∀ a, a < 8 → s2.work.meter.accum a = ((q1.data.getD (4 * a) 0).toNat + (q1.data.getD (4 * a + 1) 0).toNat * 2 ^ 18 +
          (q1.data.getD (4 * a + 2) 0).toNat * 2 ^ 36 + (q1.data.getD (4 * a + 3) 0).toNat * 2 ^ 54) * 2 ^ 36) ∧
      (s1.md.mode ≠ .stop ∨ s1.partnerHolds = true → exec (.mtSet q) s = .next (s1.complete k { status := 2 })))

/-- R458, R463–R469, R478, R480, R482: a credential is bound to a ring only by proof over its challenge, and only while its
certificate is acceptable; a session opens under one; revoking a credential ends its bindings and its sessions. R461, R469–R474: a
firmware transfer begins in a session, under a key and a security version that stand; its blocks come in order; the last one
leaves a valid image in the inactive slot, never in the active one. A scheduled activation is refused without an image, for
another group, or when its window has passed. Clauses in which a command leaves the state as it is because its event cannot occur
there are the model's choice (log entry 3). It follows the model's readings in log entries 59, 60. It follows the model's readings
in log entry 115. -/
def Obligations.IdentityAndUpdate : Prop :=
  (∀ (s s1 : State) (q q1 : Req) (r id : Nat) (c : Certificate) (fp : Option Nat), r ≤ 8 →
     let k := ticketOf r q
     let k0 := ticketOf 0 q
     let x := s1.identity
     let d := q1.desc
     let port : Bool := match q1.origin with | .session _ => true | _ => false
     let short (c : Certificate) : Cred := ⟨c.role, c.fp / 2 ^ 56 % 2 ^ 16⟩
     (Taken s r 0o220 0 q s1 q1 →
       (s1.certAccepted port c = true → ∃ l : List Word, l.length = 16 ∧ exec (.credBind r q c) s = .next (({ s1 with
         fresh := s1.fresh + 16, identity := { x with challenges := Tbl.set none x.challenges r (some c) } } : State).complete k
         { data := l })) ∧
       (s1.certAccepted port c = false → ∃ s', exec (.credBind r q c) s = .next s' ∧ s'.identity = x ∧ s'.ringCreds = s1.ringCreds ∧
         s'.rings = (s1.complete k { status := 2 }).rings)) ∧
     (Taken s r 0o221 0 q s1 q1 →
       (Tbl.get none x.challenges r = some c → s1.certAccepted port c = true → ∃ s2 : State,
         exec (.credProve r q true) s = .next (s2.complete k {}) ∧ s2.ringCred r = short c ∧ s2.rings = s1.rings ∧
         Tbl.get none s2.identity.bound r = some c ∧ Tbl.get none s2.identity.challenges r = none ∧
         ∀ j, j ≠ r → s2.ringCred j = s1.ringCred j) ∧
       (Tbl.get none x.challenges r = some c → ∃ s', exec (.credProve r q false) s = .next s' ∧ s'.ringCreds = s1.ringCreds ∧
         Tbl.get none s'.identity.challenges r = none ∧ s'.rings = (s1.complete k { status := 2 }).rings) ∧
       (Tbl.get none x.challenges r = none → ∃ s', exec (.credProve r q true) s = .next s' ∧ s'.ringCreds = s1.ringCreds)) ∧
     (Taken s r 0o222 0 q s1 q1 → ∃ s2 : State, exec (.credUnbind r q) s = .next (s2.complete k {}) ∧ s2.ringCred r = {} ∧
       Tbl.get none s2.identity.bound r = none ∧ s2.rings = s1.rings ∧ ∀ j, j ≠ r → s2.ringCred j = s1.ringCred j) ∧
     (Tbl.get none s.identity.bound r = some c → ∃ s', exec (.credentialExpiry r) s = .next s' ∧ s'.ringCred r = {} ∧
       Tbl.get none s'.identity.bound r = none ∧ s'.rings = s.rings ∧ s'.sessions = s.sessions) ∧
     (Tbl.get none s.identity.bound r = none → exec (.credentialExpiry r) s = .next s) ∧
     (s.domainOn 2 = true → s.sessions.length < 4 →
       (s.certAccepted true c = true → ∃ s' n, exec (.serviceSessionOpen c) s = .next s' ∧ s'.sessions = s.sessions ++ [⟨n, c⟩] ∧
         n ≤ 3 ∧ (∀ e ∈ s.sessions, e.id ≠ n) ∧ s'.ringCreds = s.ringCreds ∧ s'.work = s.work) ∧
       (s.certAccepted true c = false → ∃ s', exec (.serviceSessionOpen c) s = .next s' ∧ s'.sessions = s.sessions)) ∧
     (s.clock.ostop = false → s.clock.sec < c.notBefore ∨ c.notAfter < s.clock.sec → s.certAccepted true c = false) ∧
     ((∃ e ∈ s.sessions, e.id = id) → ∀ cmd, cmd = Instr.serviceSessionClose id ∨ cmd = Instr.sessionIdleTimeout id →
       ∃ s', exec cmd s = .next s' ∧ s'.sessions = s.sessions.filter (fun e => e.id != id) ∧
         (s.debugOpen = some id → s'.debugOpen = none) ∧ (s.debugOpen ≠ some id → s'.debugOpen = s.debugOpen) ∧
         (s.md.mode = .service → s.md.serviceSession = some id → s'.md.mode = .stop) ∧
         (s.md.mode ≠ .service ∨ s.md.serviceSession ≠ some id → s'.md.mode = s.md.mode)) ∧
     (Taken s 0 0o223 2 q s1 q1 →
       let n := d.a0.toNat + d.a1.toNat * 2 ^ 18 + d.a2.toNat * 2 ^ 36 + d.a3.toNat * 2 ^ 54
       (n ∈ x.revoked ∨ x.revoked.length < 252 → ∃ s', exec (.credRevoke q) s = .next s' ∧ n ∈ s'.identity.revoked ∧
         (n ∈ x.revoked → s'.identity.revoked = x.revoked) ∧ (n ∉ x.revoked → s'.identity.revoked = x.revoked ++ [n]) ∧
         (∀ e ∈ s'.sessions, e.cert.fp ≠ n) ∧ (∀ e ∈ s1.sessions, (∀ e' ∈ s1.sessions, e'.id = e.id → e'.cert.fp ≠ n) → e ∈ s'.sessions) ∧
         (∀ j c, j ≤ 8 → Tbl.get none s'.identity.bound j = some c → c.fp ≠ n)) ∧
       (n ∉ x.revoked → 252 ≤ x.revoked.length → exec (.credRevoke q) s = .next (s1.complete k0 { status := 2 }))) ∧
     (Taken s 0 0o224 2 q s1 q1 → q1.origin = .session id →
       let a := Tbl.set none x.anchors (min 3 d.a0.toNat) fp
       let accepted : Prop := ∃ e ∈ s1.sessions, e.id = id ∧ s1.certAccepted true e.cert = true
       (accepted → a ≠ [] → ∃ s2 : State, exec (.anchorSet q fp) s = .next (s2.complete k0 {}) ∧ s2.identity = { x with anchors := a } ∧
         s2.rings = s1.rings) ∧
       (accepted → a = [] → exec (.anchorSet q fp) s = .next (s1.complete k0 { status := 2 })) ∧
       (¬ accepted → ∃ s', exec (.anchorSet q fp) s = .next s' ∧ s'.identity = x ∧ s'.rings = (s1.complete k0 { status := 1 }).rings)) ∧
     (Taken s 0 0o225 0 q s1 q1 → exec (.idCertGet q) s = .next (s1.complete k0 { data := Config.deviceChain })) ∧
     (Taken s 0 0o226 3 q s1 q1 → q1.origin = .session id → ∃ s2 : State, exec (.dbgOpen q) s = .next (s2.complete k0 {}) ∧
       s2.debugOpen = (if d.a0.getLsbD 0 then some id else none) ∧ s2.md = s1.md ∧ s2.sessions = s1.sessions ∧
       (d.a0.getLsbD 0 = true ∨ s1.debugOpen = none → s2.rings = s1.rings ∧ s2.locks = s1.locks ∧ s2.channels = s1.channels)) ∧
     (Taken s 0 0o227 1 q s1 q1 → let p := 128 + 2 * min 62 d.a0.toNat
       ∃ l : List Word, exec (.setRetainedGet q) s = .next (s1.complete k0 { data := l }) ∧ l.length = 64 ∧
         ∀ u, s1.pages.used p = some u → ∀ i, i < 64 → l[i]? = some (Tbl.get 0 s1.pages.words (64 * u + i))) ∧
     (Taken s 0 0o230 2 q s1 q1 → (s1.pages.jobs = [] ∧ s1.pages.busy = false) ∨ s1.pages.busy = true →
       ∃ s' j, exec (.setRetainedClear q) s = .next s' ∧ s'.pages.jobs = s1.pages.jobs ++ [j] ∧ s'.pages.busy = true ∧
         j.ticket = some k0 ∧ s'.rings = s1.rings ∧ j.work = .words (128 + 2 * min 62 d.a0.toNat) 0 (List.replicate 128 0))) ∧
  (∀ (s s1 : State) (q q1 : Req) (m : Manifest) (t : Transfer) (a : ArmedUpdate),
     let k := ticketOf 7 q
     let d := q1.desc
     let f := s1.firmware
     let inSession : Prop := ∃ id, q1.origin = .session id
     let refused (n : Nat) : Out := .next (s1.complete k { status := 2, detail := n })
     (Taken s 7 0o210 2 q s1 q1 →
       let program : Bool := d.a0 != 0
       let may : Prop := if program then s1.packageHeld = false else inSession ∧ s1.manifestFault m = none
       let again : Prop := ∃ t, f.unfinished = some t ∧ t.manifest = m ∧ t.program = program
       let disarmed (a : Option ArmedUpdate) : Prop := if program then a = f.armed else a = none
       (may → ¬ again → ∃ s2 : State, exec (.updBegin q m) s = .next (s2.complete k { len := some 0 }) ∧ s2.rings = s1.rings ∧
         disarmed s2.firmware.armed ∧ s2.firmware = { f with transfer := some ⟨m, program, 0⟩, armed := s2.firmware.armed }) ∧
       (may → ∀ t, f.unfinished = some t → t.manifest = m → t.program = program → ∃ s2 : State,
         exec (.updBegin q m) s = .next (s2.complete k { len := some t.verified }) ∧ s2.rings = s1.rings ∧
         disarmed s2.firmware.armed ∧ s2.firmware = { f with armed := s2.firmware.armed }) ∧
       (d.a0 = 0 → inSession → m.signer = none → exec (.updBegin q m) s = refused 1) ∧
       (d.a0 = 0 → inSession → ∀ key, m.signer = some key → s1.makerKey key = true → m.svn < f.svn →
         exec (.updBegin q m) s = refused 2) ∧
       (d.a0 ≠ 0 → s1.packageHeld = true → exec (.updBegin q m) s = refused 9)) ∧
     (Taken s 7 0o211 2 q s1 q1 → f.unfinished = some t → t.program = true ∨ inSession →
       let next : Transfer := { t with verified := t.verified + 1 }
       let last : Prop := t.verified + 1 = t.manifest.blocks
       (d.a0.toNat ≠ t.verified → exec (.updBlock q true) s = refused 3) ∧
       (d.a0.toNat = t.verified → exec (.updBlock q false) s = refused 4) ∧
       (d.a0.toNat = t.verified → t.program = true →
         (¬ last → exec (.updBlock q true) s =
           .next (({ s1 with firmware := { f with transfer := some next } } : State).complete k {})) ∧
         (last → s1.acceptsPackage t.manifest.full = true → ∃ s', exec (.updBlock q true) s = .next s' ∧ s'.online.transferred = true ∧
           s'.firmware = { f with transfer := some next, lastBlock := some k } ∧ s'.rings = s1.rings) ∧
         (last → s1.acceptsPackage t.manifest.full = false → exec (.updBlock q true) s = refused 10)) ∧
       (d.a0.toNat = t.verified → t.program = false → ∃ s2 : State, exec (.updBlock q true) s = .next (s2.complete k {}) ∧
         s2.rings = s1.rings ∧ s2.firmware.transfer = some next ∧ s2.firmware.slot f.active = f.slot f.active ∧
         s2.firmware.active = f.active ∧ (t.verified = 0 → s2.firmware.armed = none) ∧
         (t.verified ≠ 0 → ¬ last → s2.firmware.slot (!f.active) = f.slot (!f.active)) ∧
         (t.verified = 0 → ¬ last → s2.firmware.slot (!f.active) = none) ∧
         (last → s2.firmware.slot (!f.active) = some t.manifest))) ∧
     (Taken s 7 0o212 2 q s1 q1 →
       let at_ := d.a0.toNat + d.a1.toNat * 2 ^ 18
       let w := 60 * max 1 (min 1440 d.a2.toNat)
       let group := min 4095 d.a3.toNat
       let other : Prop := group ≠ 0 ∧ s1.updGroup ≠ 0 ∧ group ≠ s1.updGroup
       let timed : Prop := s1.clock.ostop = false ∨ s1.train.tstate = 2
       (f.imageReady = false → exec (.updSchedule q) s = refused 5) ∧
       (f.imageReady = true → other → exec (.updSchedule q) s = refused 6) ∧
       (f.imageReady = true → ¬ other → ¬ timed → exec (.updSchedule q) s = refused 7) ∧
       (f.imageReady = true → ¬ other → timed →
         (at_ + w ≤ s1.utcNow → exec (.updSchedule q) s = refused 8) ∧
         (s1.utcNow < at_ + w → ∃ s2 : State, exec (.updSchedule q) s = .next (s2.complete k {}) ∧
           s2.firmware = { f with armed := some ⟨at_, w⟩, shownAt := at_ } ∧ s2.rings = s1.rings))) ∧
     (Taken s 7 0o213 2 q s1 q1 → ∃ s2 : State, exec (.updCancel q) s = .next (s2.complete k {}) ∧ s2.firmware.armed = none ∧
       s2.rings = s1.rings ∧ s2.firmware.slot f.active = f.slot f.active ∧
       (d.a0.getLsbD 0 = true → s2.firmware.transfer = none ∧ s2.firmware.imageIn = false) ∧
       (d.a0.getLsbD 0 = false → s2.firmware = { f with armed := none })) ∧
     (s.firmware.armed = some a → s.firmware.activating = false → ∃ s', exec .activationWindowEnd s = .next s' ∧
       s'.firmware = { s.firmware with armed := none } ∧ s'.md = s.md) ∧
     (s.firmware.activating = true → exec .activationWindowEnd s = .next s))

/-! ## The whole machine -/

/-- A step runs the command at the front of the queue with the queue's rest; on an empty queue the block idles (the model's
choice: log entry 1). -/
def Obligations.StepRunsFront : Prop :=
  ∀ (s : State) (c : Instr) (rest : List Instr),
    (s.pending = c :: rest → step s = exec c { s with pending := rest }) ∧ (s.pending = [] → step s = .next s) ∧
    step { s with pending := c :: s.pending } = exec c s

/-- R104, R105, R108–R116: the words of every tile instruction spell it again, with every operand; every word spells one
instruction of the tables, with its own bits in it, or the trap for a word that R110 reserves. -/
def Obligations.InstructionWords : Prop :=
  (∀ (i : Instr) (w w2 : Word), tileWords i = some (w, w2) → ∃ t, tileCommand t w w2 = i) ∧
  (∀ (t : Nat) (w w2 : Word), ∃ v2, tileWords (tileCommand t w w2) = some (w, v2) ∧ (lengthOf w = 2 → v2 = w2)) ∧
  (∀ (t : Nat) (w w2 : Word), (reservedDetail w w2).isSome = true → tileCommand t w w2 = .reservedOpcodeTrap t w w2) ∧
  (∀ t, tileCommand t 0o021_203 0 = .add t 1 2 3 ∧ tileCommand t 0o611_000 0o111_000 = .bfx t 1 0 9 8 ∧
    tileCommand t 0o442_033 0 = .nperm t 2 0 0o033)

/-- R1, R22, R44, R45, R270, R274, R284, R290, R510: right after manufacture the module is in Off, with no tick passed and no
program; the tick set-up is 1,000 µs, 20 µs and 60 µs without lock; every ring and lock is free; nothing is listed in any memory.
What no rule gives a value for (memories without content, table entries, the KS-8) is the model's choice (log entries 11, 12, 13).
-/
def Obligations.AtReset : Prop :=
  let s := State.reset
  s.LegalPart ∧ CoresAgree s ∧ s.pending = [] ∧ s.md.mode = .off ∧ s.work.count = 0 ∧ s.work.program.loaded = false ∧ s.work.mem = [] ∧
    s.work.setup = ⟨1000, 20, 60, false⟩ ∧ s.tick = s.work.setup ∧ s.power.on = [] ∧ s.recorder.seq = 0 ∧ s.arch.epoch = 0 ∧
    s.pages.words = [] ∧ s.identity.revoked = [] ∧ s.sessions = [] ∧ s.setup = [] ∧
    (∀ r, s.ring r = { en := false, owner := 63, log2s := 3 }) ∧ (∀ k, s.lock k = { owner := 63 }) ∧
    (∀ c, s.channel c = {}) ∧ (∀ t, s.tile t = {}) ∧ ∀ m, s.reaches m = false

/-- Every command answers a next state in every state: the block neither faults nor refuses a command. A command whose
precondition does not hold leaves the block as it is (the model's choice: log entry 3). -/
def Obligations.EveryCommandAnswers : Prop :=
  ∀ (c : Instr) (s : State), completes (exec c s)

/-- R1, R4, R240, R454, R461: no step changes the variant or an option fuse, lowers the epoch, or lowers the security version; it
takes one command from the queue and adds none; and where the two cores of every bond agree, they agree after it (R141). -/
def Obligations.StepsNeverGoBack : Prop :=
  ∀ (s s' : State), step s = .next s' →
    s'.variant = s.variant ∧ s'.noReserves = s.noReserves ∧ s'.watchdog.hwStart = s.watchdog.hwStart ∧
    s.arch.epoch ≤ s'.arch.epoch ∧ s.firmware.svn ≤ s'.firmware.svn ∧ s'.pending = s.pending.tail ∧ (s.LegalPart → s'.LegalPart) ∧
    (CoresAgree s → CoresAgree s')
end

