-- ==== Sys2Proof/Laws/Table.lean ====
section
/-!
SUPPORT. The laws of sparse tables: a read after a write, in every table, and that every operation keeps the canonical form.
-/

namespace Sys2Proof.Machine

/-! ## A read after a write -/

/-- An erased entry reads as the default. -/
theorem Tbl.get_erase_self {α : Type} (d : α) (m : Tbl α) (i : Nat) : Tbl.get d (m.erase i) i = d := by
  induction m with
  | nil => rfl
  | cons e rest ih => obtain ⟨k, v⟩ := e; by_cases h : k = i <;> simp [Tbl.erase, Tbl.get, h, ih]

/-- Every other entry stays. -/
theorem Tbl.get_erase_ne {α : Type} (d : α) (m : Tbl α) {i j : Nat} (h : j ≠ i) :
    Tbl.get d (m.erase i) j = Tbl.get d m j := by
  induction m with
  | nil => rfl
  | cons e rest ih =>
    obtain ⟨k, v⟩ := e
    by_cases hk : k = i
    · simp [Tbl.erase, Tbl.get, hk, ih, Ne.symm h]
    · simp [Tbl.erase, Tbl.get, hk, ih]

/-- An inserted entry, where the key has no other. -/
theorem Tbl.get_insert_self {α : Type} (d : α) (m : Tbl α) (i : Nat) (x : α) :
    Tbl.get d ((m.erase i).insert i x) i = x := by
  induction m with
  | nil => simp [Tbl.erase, Tbl.insert, Tbl.get]
  | cons e rest ih =>
    obtain ⟨k, v⟩ := e
    by_cases hk : k = i
    · simpa [Tbl.erase, hk] using ih
    · simp only [Tbl.erase, if_neg hk, Tbl.insert]
      split
      · simp [Tbl.get]
      · simpa [Tbl.get, hk] using ih

/-- An insertion leaves every other entry. -/
theorem Tbl.get_insert_ne {α : Type} (d : α) (m : Tbl α) {i j : Nat} (x : α) (h : j ≠ i) :
    Tbl.get d (m.insert i x) j = Tbl.get d m j := by
  induction m with
  | nil => simp [Tbl.insert, Tbl.get, Ne.symm h]
  | cons e rest ih =>
    obtain ⟨k, v⟩ := e
    simp only [Tbl.insert]
    split
    · simp [Tbl.get, Ne.symm h]
    · simp [Tbl.get, ih]

variable {α : Type} [DecidableEq α]

/-- A read of the entry just written. -/
@[simp] theorem Tbl.get_set_self (d : α) (m : Tbl α) (i : Nat) (x : α) : Tbl.get d (Tbl.set d m i x) i = x := by
  unfold Tbl.set
  split
  · next h => rw [h]; exact Tbl.get_erase_self d m i
  · exact Tbl.get_insert_self d m i x

/-- A read of any other entry. -/
theorem Tbl.get_set_ne (d : α) (m : Tbl α) {i j : Nat} (x : α) (h : j ≠ i) :
    Tbl.get d (Tbl.set d m i x) j = Tbl.get d m j := by
  unfold Tbl.set
  split
  · exact Tbl.get_erase_ne d m h
  · rw [Tbl.get_insert_ne d _ x h]; exact Tbl.get_erase_ne d m h

/-- A read after a write. -/
theorem Tbl.get_set (d : α) (m : Tbl α) (i j : Nat) (x : α) :
    Tbl.get d (Tbl.set d m i x) j = if j = i then x else Tbl.get d m j := by
  split
  · next h => subst h; simp
  · next h => exact Tbl.get_set_ne d m x h

/-! ## The canonical form -/

/-- The canonical form holds from any lower bound. -/
theorem Tbl.wfFrom_mono {d : α} {m : Tbl α} {b b' : Nat} (h : Tbl.wfFrom d b m = true) (hb : b' ≤ b) :
    Tbl.wfFrom d b' m = true := by
  cases m with
  | nil => rfl
  | cons e rest =>
    simp only [Tbl.wfFrom, Bool.and_eq_true, decide_eq_true_eq] at h ⊢
    exact ⟨⟨by omega, h.1.2⟩, h.2⟩

/-- Erasing keeps the canonical form. -/
theorem Tbl.wfFrom_erase {d : α} : ∀ {m : Tbl α} {b : Nat} (i : Nat), Tbl.wfFrom d b m = true →
    Tbl.wfFrom d b (m.erase i) = true
  | [], _, _, _ => rfl
  | (k, v) :: rest, b, i, h => by
    simp only [Tbl.wfFrom, Bool.and_eq_true, decide_eq_true_eq] at h
    simp only [Tbl.erase]
    split
    · exact Tbl.wfFrom_mono (Tbl.wfFrom_erase i h.2) (by omega)
    · simp only [Tbl.wfFrom, Bool.and_eq_true, decide_eq_true_eq]
      exact ⟨h.1, Tbl.wfFrom_erase i h.2⟩

/-- Inserting a value that is not the default keeps the canonical form. -/
theorem Tbl.wfFrom_insert {d : α} : ∀ {m : Tbl α} {b : Nat} (i : Nat) (x : α), x ≠ d → Tbl.wfFrom d b m = true → b ≤ i →
    Tbl.wfFrom d b ((m.erase i).insert i x) = true
  | [], b, i, x, hx, _, hi => by simp [Tbl.erase, Tbl.insert, Tbl.wfFrom, hx, hi]
  | (k, v) :: rest, b, i, x, hx, h, hi => by
    simp only [Tbl.wfFrom, Bool.and_eq_true, decide_eq_true_eq] at h
    by_cases hk : k = i
    · simp only [Tbl.erase, if_pos hk]
      exact Tbl.wfFrom_insert i x hx (Tbl.wfFrom_mono h.2 (by omega)) hi
    · simp only [Tbl.erase, if_neg hk, Tbl.insert]
      split
      · simp only [Tbl.wfFrom, Bool.and_eq_true, decide_eq_true_eq]
        exact ⟨⟨hi, hx⟩, ⟨by omega, h.1.2⟩, Tbl.wfFrom_erase i h.2⟩
      · simp only [Tbl.wfFrom, Bool.and_eq_true, decide_eq_true_eq]
        exact ⟨h.1, Tbl.wfFrom_insert i x hx h.2 (by omega)⟩

/-- A write keeps a table canonical. -/
theorem Tbl.wf_set {d : α} {m : Tbl α} (i : Nat) (x : α) (h : Tbl.wf d m = true) :
    Tbl.wf d (Tbl.set d m i x) = true := by
  unfold Tbl.set
  split
  · exact Tbl.wfFrom_erase i h
  · next hx => exact Tbl.wfFrom_insert i x hx h (Nat.zero_le i)

/-- Consecutive writes keep a table canonical. -/
theorem Tbl.wf_setMany {d : α} : ∀ (xs : List α) {m : Tbl α} (i : Nat), Tbl.wf d m = true →
    Tbl.wf d (Tbl.setMany d m i xs) = true
  | [], _, _, h => h
  | x :: xs, _, i, h => Tbl.wf_setMany xs (i + 1) (Tbl.wf_set i x h)

/-- Rewriting entries keeps the canonical form. -/
theorem Tbl.wfFrom_mapEntries {d : α} (f : Nat → α → α) : ∀ {m : Tbl α} {b : Nat}, Tbl.wfFrom d b m = true →
    Tbl.wfFrom d b (Tbl.mapEntries d f m) = true
  | [], _, _ => rfl
  | (k, v) :: rest, b, h => by
    simp only [Tbl.wfFrom, Bool.and_eq_true, decide_eq_true_eq] at h
    simp only [Tbl.mapEntries]
    split
    · exact Tbl.wfFrom_mono (Tbl.wfFrom_mapEntries f h.2) (by omega)
    · next hx =>
      simp only [Tbl.wfFrom, Bool.and_eq_true, decide_eq_true_eq]
      exact ⟨⟨h.1.1, hx⟩, Tbl.wfFrom_mapEntries f h.2⟩

/-- Rewriting entries keeps a table canonical. -/
theorem Tbl.wf_mapEntries {d : α} (f : Nat → α → α) {m : Tbl α} (h : Tbl.wf d m = true) :
    Tbl.wf d (Tbl.mapEntries d f m) = true := Tbl.wfFrom_mapEntries f h

/-- Keeping some entries keeps the canonical form. -/
theorem Tbl.wfFrom_keep {d : α} (p : Nat → α → Bool) : ∀ {m : Tbl α} {b : Nat}, Tbl.wfFrom d b m = true →
    Tbl.wfFrom d b (Tbl.keep p m) = true
  | [], _, _ => rfl
  | (k, v) :: rest, b, h => by
    simp only [Tbl.wfFrom, Bool.and_eq_true, decide_eq_true_eq] at h
    have ih := Tbl.wfFrom_keep p h.2
    simp only [Tbl.keep] at ih ⊢
    rw [List.filter_cons]
    split
    · simp only [Tbl.wfFrom, Bool.and_eq_true, decide_eq_true_eq]
      exact ⟨h.1, ih⟩
    · exact Tbl.wfFrom_mono ih (by omega)

/-- Keeping some entries keeps a table canonical. -/
theorem Tbl.wf_keep {d : α} (p : Nat → α → Bool) {m : Tbl α} (h : Tbl.wf d m = true) :
    Tbl.wf d (Tbl.keep p m) = true := Tbl.wfFrom_keep p h

/-- The table without entries is canonical. -/
@[simp] theorem Tbl.wf_nil {d : α} : Tbl.wf d ([] : Tbl α) = true := rfl

/-- Every entry of the table without entries reads as the default. -/
@[simp] theorem Tbl.get_nil {β : Type} {d : β} (i : Nat) : Tbl.get d ([] : Tbl β) i = d := rfl

/-! ## A second write, and consecutive reads -/

/-- Erasing twice is erasing once. -/
theorem Tbl.erase_erase {β : Type} (m : Tbl β) (i : Nat) : (m.erase i).erase i = m.erase i := by
  induction m with
  | nil => rfl
  | cons e rest ih =>
    obtain ⟨k, v⟩ := e
    by_cases h : k = i <;> simp [Tbl.erase, h, ih]

/-- Erasing what was just put in its place. -/
theorem Tbl.erase_insert {β : Type} (m : Tbl β) (i : Nat) (x : β) : Tbl.erase (Tbl.insert m i x) i = m.erase i := by
  induction m with
  | nil => simp [Tbl.insert, Tbl.erase]
  | cons e rest ih =>
    obtain ⟨k, v⟩ := e
    simp only [Tbl.insert]; split
    · simp [Tbl.erase]
    · by_cases h : k = i <;> simp [Tbl.erase, h, ih]

/-- The later write of an entry stands. -/
@[simp] theorem Tbl.set_set (d : α) (m : Tbl α) (i : Nat) (x y : α) : Tbl.set d (Tbl.set d m i x) i y = Tbl.set d m i y := by
  have h : Tbl.erase (Tbl.set d m i x) i = m.erase i := by
    unfold Tbl.set; split
    · exact Tbl.erase_erase m i
    · rw [Tbl.erase_insert, Tbl.erase_erase]
  rw [Tbl.set.eq_1 d (Tbl.set d m i x), h]; rfl

/-- Consecutive reads, one by one. -/
theorem Tbl.getMany_getElem? {β : Type} (d : β) (m : Tbl β) : ∀ (n i k : Nat), k < n →
    (Tbl.getMany d m i n)[k]? = some (Tbl.get d m (i + k))
  | n + 1, i, 0, _ => by simp [Tbl.getMany]
  | n + 1, i, k + 1, h => by
    simp only [Tbl.getMany, List.getElem?_cons_succ]
    rw [Tbl.getMany_getElem? d m n (i + 1) k (by omega)]
    congr 2; omega

/-- Consecutive writes leave every entry outside them. -/
theorem Tbl.get_setMany_of_outside (d : α) : ∀ (xs : List α) (m : Tbl α) (i j : Nat), j < i ∨ i + xs.length ≤ j →
    Tbl.get d (Tbl.setMany d m i xs) j = Tbl.get d m j
  | [], _, _, _, _ => rfl
  | x :: xs, m, i, j, h => by
    simp only [List.length_cons] at h
    rw [Tbl.setMany, Tbl.get_setMany_of_outside d xs (Tbl.set d m i x) (i + 1) j (by omega)]
    exact Tbl.get_set_ne d m x (by omega)

/-- Consecutive reads of consecutive writes. -/
theorem Tbl.getMany_setMany (d : α) : ∀ (xs : List α) (m : Tbl α) (i : Nat),
    Tbl.getMany d (Tbl.setMany d m i xs) i xs.length = xs
  | [], _, _ => rfl
  | x :: xs, m, i => by
    have h := Tbl.getMany_setMany d xs (Tbl.set d m i x) (i + 1)
    simp only [Tbl.setMany, List.length_cons, Tbl.getMany, h]
    rw [Tbl.get_setMany_of_outside d xs _ (i + 1) i (by omega), Tbl.get_set_self]

/-- Consecutive reads elsewhere. -/
theorem Tbl.getMany_setMany_of_outside (d : α) (xs : List α) (m : Tbl α) (i : Nat) : ∀ (n j : Nat),
    j + n ≤ i ∨ i + xs.length ≤ j → Tbl.getMany d (Tbl.setMany d m i xs) j n = Tbl.getMany d m j n
  | 0, _, _ => rfl
  | n + 1, j, h => by
    simp only [Tbl.getMany]
    rw [Tbl.get_setMany_of_outside d xs m i j (by omega), Tbl.getMany_setMany_of_outside d xs m i n (j + 1) (by omega)]

end Sys2Proof.Machine
end

