-- ==== Sys2Proof/Laws/State.lean ====
section
/-!
SUPPORT. One lemma per field per update of the state, and the reads of the units after a write.
-/

namespace Sys2Proof.Machine

variable (s : State)

/-! ## setTile -/

@[simp] theorem State.setTile_pending (t : Nat) (x : Tile) : (s.setTile t x).pending = s.pending := rfl
@[simp] theorem State.setTile_lastRead (t : Nat) (x : Tile) : (s.setTile t x).lastRead = s.lastRead := rfl
@[simp] theorem State.setTile_fresh (t : Nat) (x : Tile) : (s.setTile t x).fresh = s.fresh := rfl
@[simp] theorem State.setTile_variant (t : Nat) (x : Tile) : (s.setTile t x).variant = s.variant := rfl
@[simp] theorem State.setTile_noReserves (t : Nat) (x : Tile) : (s.setTile t x).noReserves = s.noReserves := rfl
@[simp] theorem State.setTile_md (t : Nat) (x : Tile) : (s.setTile t x).md = s.md := rfl
@[simp] theorem State.setTile_work (t : Nat) (x : Tile) : (s.setTile t x).work = s.work := rfl
@[simp] theorem State.setTile_tick (t : Nat) (x : Tile) : (s.setTile t x).tick = s.tick := rfl
@[simp] theorem State.setTile_perStaged (t : Nat) (x : Tile) : (s.setTile t x).perStaged = s.perStaged := rfl
@[simp] theorem State.setTile_ovrTile (t : Nat) (x : Tile) : (s.setTile t x).ovrTile = s.ovrTile := rfl
@[simp] theorem State.setTile_ovrConsec (t : Nat) (x : Tile) : (s.setTile t x).ovrConsec = s.ovrConsec := rfl
@[simp] theorem State.setTile_ovrValid (t : Nat) (x : Tile) : (s.setTile t x).ovrValid = s.ovrValid := rfl
@[simp] theorem State.setTile_ovrTask (t : Nat) (x : Tile) : (s.setTile t x).ovrTask = s.ovrTask := rfl
@[simp] theorem State.setTile_tiles (t : Nat) (x : Tile) : (s.setTile t x).tiles = Tbl.set {} s.tiles t x := rfl
@[simp] theorem State.setTile_dies (t : Nat) (x : Tile) : (s.setTile t x).dies = s.dies := rfl
@[simp] theorem State.setTile_upsets (t : Nat) (x : Tile) : (s.setTile t x).upsets = s.upsets := rfl
@[simp] theorem State.setTile_persist (t : Nat) (x : Tile) : (s.setTile t x).persist = s.persist := rfl
@[simp] theorem State.setTile_online (t : Nat) (x : Tile) : (s.setTile t x).online = s.online := rfl
@[simp] theorem State.setTile_rings (t : Nat) (x : Tile) : (s.setTile t x).rings = s.rings := rfl
@[simp] theorem State.setTile_channels (t : Nat) (x : Tile) : (s.setTile t x).channels = s.channels := rfl
@[simp] theorem State.setTile_refusedSends (t : Nat) (x : Tile) : (s.setTile t x).refusedSends = s.refusedSends := rfl
@[simp] theorem State.setTile_trackDiscards (t : Nat) (x : Tile) : (s.setTile t x).trackDiscards = s.trackDiscards := rfl
@[simp] theorem State.setTile_locks (t : Nat) (x : Tile) : (s.setTile t x).locks = s.locks := rfl
@[simp] theorem State.setTile_msix (t : Nat) (x : Tile) : (s.setTile t x).msix = s.msix := rfl
@[simp] theorem State.setTile_foremanEvents (t : Nat) (x : Tile) : (s.setTile t x).foremanEvents = s.foremanEvents := rfl
@[simp] theorem State.setTile_recorder (t : Nat) (x : Tile) : (s.setTile t x).recorder = s.recorder := rfl
@[simp] theorem State.setTile_pages (t : Nat) (x : Tile) : (s.setTile t x).pages = s.pages := rfl
@[simp] theorem State.setTile_setup (t : Nat) (x : Tile) : (s.setTile t x).setup = s.setup := rfl
@[simp] theorem State.setTile_setupTick (t : Nat) (x : Tile) : (s.setTile t x).setupTick = s.setupTick := rfl
@[simp] theorem State.setTile_setupStart (t : Nat) (x : Tile) : (s.setTile t x).setupStart = s.setupStart := rfl
@[simp] theorem State.setTile_latches (t : Nat) (x : Tile) : (s.setTile t x).latches = s.latches := rfl
@[simp] theorem State.setTile_ignored (t : Nat) (x : Tile) : (s.setTile t x).ignored = s.ignored := rfl
@[simp] theorem State.setTile_ringCreds (t : Nat) (x : Tile) : (s.setTile t x).ringCreds = s.ringCreds := rfl
@[simp] theorem State.setTile_sessions (t : Nat) (x : Tile) : (s.setTile t x).sessions = s.sessions := rfl
@[simp] theorem State.setTile_sessionOut (t : Nat) (x : Tile) : (s.setTile t x).sessionOut = s.sessionOut := rfl
@[simp] theorem State.setTile_programCred (t : Nat) (x : Tile) : (s.setTile t x).programCred = s.programCred := rfl
@[simp] theorem State.setTile_identity (t : Nat) (x : Tile) : (s.setTile t x).identity = s.identity := rfl
@[simp] theorem State.setTile_firmware (t : Nat) (x : Tile) : (s.setTile t x).firmware = s.firmware := rfl
@[simp] theorem State.setTile_debugOpen (t : Nat) (x : Tile) : (s.setTile t x).debugOpen = s.debugOpen := rfl
@[simp] theorem State.setTile_clock (t : Nat) (x : Tile) : (s.setTile t x).clock = s.clock := rfl
@[simp] theorem State.setTile_watchdog (t : Nat) (x : Tile) : (s.setTile t x).watchdog = s.watchdog := rfl
@[simp] theorem State.setTile_power (t : Nat) (x : Tile) : (s.setTile t x).power = s.power := rfl
@[simp] theorem State.setTile_hostLink (t : Nat) (x : Tile) : (s.setTile t x).hostLink = s.hostLink := rfl
@[simp] theorem State.setTile_island (t : Nat) (x : Tile) : (s.setTile t x).island = s.island := rfl
@[simp] theorem State.setTile_field (t : Nat) (x : Tile) : (s.setTile t x).field = s.field := rfl
@[simp] theorem State.setTile_modulators (t : Nat) (x : Tile) : (s.setTile t x).modulators = s.modulators := rfl
@[simp] theorem State.setTile_arch (t : Nat) (x : Tile) : (s.setTile t x).arch = s.arch := rfl
@[simp] theorem State.setTile_links (t : Nat) (x : Tile) : (s.setTile t x).links = s.links := rfl
@[simp] theorem State.setTile_stations (t : Nat) (x : Tile) : (s.setTile t x).stations = s.stations := rfl
@[simp] theorem State.setTile_train (t : Nat) (x : Tile) : (s.setTile t x).train = s.train := rfl
@[simp] theorem State.setTile_cans (t : Nat) (x : Tile) : (s.setTile t x).cans = s.cans := rfl
@[simp] theorem State.setTile_serials (t : Nat) (x : Tile) : (s.setTile t x).serials = s.serials := rfl
@[simp] theorem State.setTile_canRx (t : Nat) (x : Tile) : (s.setTile t x).canRx = s.canRx := rfl
@[simp] theorem State.setTile_serialRx (t : Nat) (x : Tile) : (s.setTile t x).serialRx = s.serialRx := rfl

/-! ## setDie -/

@[simp] theorem State.setDie_pending (d : Nat) (x : Die) : (s.setDie d x).pending = s.pending := rfl
@[simp] theorem State.setDie_lastRead (d : Nat) (x : Die) : (s.setDie d x).lastRead = s.lastRead := rfl
@[simp] theorem State.setDie_fresh (d : Nat) (x : Die) : (s.setDie d x).fresh = s.fresh := rfl
@[simp] theorem State.setDie_variant (d : Nat) (x : Die) : (s.setDie d x).variant = s.variant := rfl
@[simp] theorem State.setDie_noReserves (d : Nat) (x : Die) : (s.setDie d x).noReserves = s.noReserves := rfl
@[simp] theorem State.setDie_md (d : Nat) (x : Die) : (s.setDie d x).md = s.md := rfl
@[simp] theorem State.setDie_work (d : Nat) (x : Die) : (s.setDie d x).work = s.work := rfl
@[simp] theorem State.setDie_tick (d : Nat) (x : Die) : (s.setDie d x).tick = s.tick := rfl
@[simp] theorem State.setDie_perStaged (d : Nat) (x : Die) : (s.setDie d x).perStaged = s.perStaged := rfl
@[simp] theorem State.setDie_ovrTile (d : Nat) (x : Die) : (s.setDie d x).ovrTile = s.ovrTile := rfl
@[simp] theorem State.setDie_ovrConsec (d : Nat) (x : Die) : (s.setDie d x).ovrConsec = s.ovrConsec := rfl
@[simp] theorem State.setDie_ovrValid (d : Nat) (x : Die) : (s.setDie d x).ovrValid = s.ovrValid := rfl
@[simp] theorem State.setDie_ovrTask (d : Nat) (x : Die) : (s.setDie d x).ovrTask = s.ovrTask := rfl
@[simp] theorem State.setDie_tiles (d : Nat) (x : Die) : (s.setDie d x).tiles = s.tiles := rfl
@[simp] theorem State.setDie_dies (d : Nat) (x : Die) : (s.setDie d x).dies = Tbl.set {} s.dies d x := rfl
@[simp] theorem State.setDie_upsets (d : Nat) (x : Die) : (s.setDie d x).upsets = s.upsets := rfl
@[simp] theorem State.setDie_persist (d : Nat) (x : Die) : (s.setDie d x).persist = s.persist := rfl
@[simp] theorem State.setDie_online (d : Nat) (x : Die) : (s.setDie d x).online = s.online := rfl
@[simp] theorem State.setDie_rings (d : Nat) (x : Die) : (s.setDie d x).rings = s.rings := rfl
@[simp] theorem State.setDie_channels (d : Nat) (x : Die) : (s.setDie d x).channels = s.channels := rfl
@[simp] theorem State.setDie_refusedSends (d : Nat) (x : Die) : (s.setDie d x).refusedSends = s.refusedSends := rfl
@[simp] theorem State.setDie_trackDiscards (d : Nat) (x : Die) : (s.setDie d x).trackDiscards = s.trackDiscards := rfl
@[simp] theorem State.setDie_locks (d : Nat) (x : Die) : (s.setDie d x).locks = s.locks := rfl
@[simp] theorem State.setDie_msix (d : Nat) (x : Die) : (s.setDie d x).msix = s.msix := rfl
@[simp] theorem State.setDie_foremanEvents (d : Nat) (x : Die) : (s.setDie d x).foremanEvents = s.foremanEvents := rfl
@[simp] theorem State.setDie_recorder (d : Nat) (x : Die) : (s.setDie d x).recorder = s.recorder := rfl
@[simp] theorem State.setDie_pages (d : Nat) (x : Die) : (s.setDie d x).pages = s.pages := rfl
@[simp] theorem State.setDie_setup (d : Nat) (x : Die) : (s.setDie d x).setup = s.setup := rfl
@[simp] theorem State.setDie_setupTick (d : Nat) (x : Die) : (s.setDie d x).setupTick = s.setupTick := rfl
@[simp] theorem State.setDie_setupStart (d : Nat) (x : Die) : (s.setDie d x).setupStart = s.setupStart := rfl
@[simp] theorem State.setDie_latches (d : Nat) (x : Die) : (s.setDie d x).latches = s.latches := rfl
@[simp] theorem State.setDie_ignored (d : Nat) (x : Die) : (s.setDie d x).ignored = s.ignored := rfl
@[simp] theorem State.setDie_ringCreds (d : Nat) (x : Die) : (s.setDie d x).ringCreds = s.ringCreds := rfl
@[simp] theorem State.setDie_sessions (d : Nat) (x : Die) : (s.setDie d x).sessions = s.sessions := rfl
@[simp] theorem State.setDie_sessionOut (d : Nat) (x : Die) : (s.setDie d x).sessionOut = s.sessionOut := rfl
@[simp] theorem State.setDie_programCred (d : Nat) (x : Die) : (s.setDie d x).programCred = s.programCred := rfl
@[simp] theorem State.setDie_identity (d : Nat) (x : Die) : (s.setDie d x).identity = s.identity := rfl
@[simp] theorem State.setDie_firmware (d : Nat) (x : Die) : (s.setDie d x).firmware = s.firmware := rfl
@[simp] theorem State.setDie_debugOpen (d : Nat) (x : Die) : (s.setDie d x).debugOpen = s.debugOpen := rfl
@[simp] theorem State.setDie_clock (d : Nat) (x : Die) : (s.setDie d x).clock = s.clock := rfl
@[simp] theorem State.setDie_watchdog (d : Nat) (x : Die) : (s.setDie d x).watchdog = s.watchdog := rfl
@[simp] theorem State.setDie_power (d : Nat) (x : Die) : (s.setDie d x).power = s.power := rfl
@[simp] theorem State.setDie_hostLink (d : Nat) (x : Die) : (s.setDie d x).hostLink = s.hostLink := rfl
@[simp] theorem State.setDie_island (d : Nat) (x : Die) : (s.setDie d x).island = s.island := rfl
@[simp] theorem State.setDie_field (d : Nat) (x : Die) : (s.setDie d x).field = s.field := rfl
@[simp] theorem State.setDie_modulators (d : Nat) (x : Die) : (s.setDie d x).modulators = s.modulators := rfl
@[simp] theorem State.setDie_arch (d : Nat) (x : Die) : (s.setDie d x).arch = s.arch := rfl
@[simp] theorem State.setDie_links (d : Nat) (x : Die) : (s.setDie d x).links = s.links := rfl
@[simp] theorem State.setDie_stations (d : Nat) (x : Die) : (s.setDie d x).stations = s.stations := rfl
@[simp] theorem State.setDie_train (d : Nat) (x : Die) : (s.setDie d x).train = s.train := rfl
@[simp] theorem State.setDie_cans (d : Nat) (x : Die) : (s.setDie d x).cans = s.cans := rfl
@[simp] theorem State.setDie_serials (d : Nat) (x : Die) : (s.setDie d x).serials = s.serials := rfl
@[simp] theorem State.setDie_canRx (d : Nat) (x : Die) : (s.setDie d x).canRx = s.canRx := rfl
@[simp] theorem State.setDie_serialRx (d : Nat) (x : Die) : (s.setDie d x).serialRx = s.serialRx := rfl

/-! ## setRing -/

@[simp] theorem State.setRing_pending (r : Nat) (x : Ring) : (s.setRing r x).pending = s.pending := rfl
@[simp] theorem State.setRing_lastRead (r : Nat) (x : Ring) : (s.setRing r x).lastRead = s.lastRead := rfl
@[simp] theorem State.setRing_fresh (r : Nat) (x : Ring) : (s.setRing r x).fresh = s.fresh := rfl
@[simp] theorem State.setRing_variant (r : Nat) (x : Ring) : (s.setRing r x).variant = s.variant := rfl
@[simp] theorem State.setRing_noReserves (r : Nat) (x : Ring) : (s.setRing r x).noReserves = s.noReserves := rfl
@[simp] theorem State.setRing_md (r : Nat) (x : Ring) : (s.setRing r x).md = s.md := rfl
@[simp] theorem State.setRing_work (r : Nat) (x : Ring) : (s.setRing r x).work = s.work := rfl
@[simp] theorem State.setRing_tick (r : Nat) (x : Ring) : (s.setRing r x).tick = s.tick := rfl
@[simp] theorem State.setRing_perStaged (r : Nat) (x : Ring) : (s.setRing r x).perStaged = s.perStaged := rfl
@[simp] theorem State.setRing_ovrTile (r : Nat) (x : Ring) : (s.setRing r x).ovrTile = s.ovrTile := rfl
@[simp] theorem State.setRing_ovrConsec (r : Nat) (x : Ring) : (s.setRing r x).ovrConsec = s.ovrConsec := rfl
@[simp] theorem State.setRing_ovrValid (r : Nat) (x : Ring) : (s.setRing r x).ovrValid = s.ovrValid := rfl
@[simp] theorem State.setRing_ovrTask (r : Nat) (x : Ring) : (s.setRing r x).ovrTask = s.ovrTask := rfl
@[simp] theorem State.setRing_tiles (r : Nat) (x : Ring) : (s.setRing r x).tiles = s.tiles := rfl
@[simp] theorem State.setRing_dies (r : Nat) (x : Ring) : (s.setRing r x).dies = s.dies := rfl
@[simp] theorem State.setRing_upsets (r : Nat) (x : Ring) : (s.setRing r x).upsets = s.upsets := rfl
@[simp] theorem State.setRing_persist (r : Nat) (x : Ring) : (s.setRing r x).persist = s.persist := rfl
@[simp] theorem State.setRing_online (r : Nat) (x : Ring) : (s.setRing r x).online = s.online := rfl
@[simp] theorem State.setRing_rings (r : Nat) (x : Ring) : (s.setRing r x).rings = Tbl.set {} s.rings r x := rfl
@[simp] theorem State.setRing_channels (r : Nat) (x : Ring) : (s.setRing r x).channels = s.channels := rfl
@[simp] theorem State.setRing_refusedSends (r : Nat) (x : Ring) : (s.setRing r x).refusedSends = s.refusedSends := rfl
@[simp] theorem State.setRing_trackDiscards (r : Nat) (x : Ring) : (s.setRing r x).trackDiscards = s.trackDiscards := rfl
@[simp] theorem State.setRing_locks (r : Nat) (x : Ring) : (s.setRing r x).locks = s.locks := rfl
@[simp] theorem State.setRing_msix (r : Nat) (x : Ring) : (s.setRing r x).msix = s.msix := rfl
@[simp] theorem State.setRing_foremanEvents (r : Nat) (x : Ring) : (s.setRing r x).foremanEvents = s.foremanEvents := rfl
@[simp] theorem State.setRing_recorder (r : Nat) (x : Ring) : (s.setRing r x).recorder = s.recorder := rfl
@[simp] theorem State.setRing_pages (r : Nat) (x : Ring) : (s.setRing r x).pages = s.pages := rfl
@[simp] theorem State.setRing_setup (r : Nat) (x : Ring) : (s.setRing r x).setup = s.setup := rfl
@[simp] theorem State.setRing_setupTick (r : Nat) (x : Ring) : (s.setRing r x).setupTick = s.setupTick := rfl
@[simp] theorem State.setRing_setupStart (r : Nat) (x : Ring) : (s.setRing r x).setupStart = s.setupStart := rfl
@[simp] theorem State.setRing_latches (r : Nat) (x : Ring) : (s.setRing r x).latches = s.latches := rfl
@[simp] theorem State.setRing_ignored (r : Nat) (x : Ring) : (s.setRing r x).ignored = s.ignored := rfl
@[simp] theorem State.setRing_ringCreds (r : Nat) (x : Ring) : (s.setRing r x).ringCreds = s.ringCreds := rfl
@[simp] theorem State.setRing_sessions (r : Nat) (x : Ring) : (s.setRing r x).sessions = s.sessions := rfl
@[simp] theorem State.setRing_sessionOut (r : Nat) (x : Ring) : (s.setRing r x).sessionOut = s.sessionOut := rfl
@[simp] theorem State.setRing_programCred (r : Nat) (x : Ring) : (s.setRing r x).programCred = s.programCred := rfl
@[simp] theorem State.setRing_identity (r : Nat) (x : Ring) : (s.setRing r x).identity = s.identity := rfl
@[simp] theorem State.setRing_firmware (r : Nat) (x : Ring) : (s.setRing r x).firmware = s.firmware := rfl
@[simp] theorem State.setRing_debugOpen (r : Nat) (x : Ring) : (s.setRing r x).debugOpen = s.debugOpen := rfl
@[simp] theorem State.setRing_clock (r : Nat) (x : Ring) : (s.setRing r x).clock = s.clock := rfl
@[simp] theorem State.setRing_watchdog (r : Nat) (x : Ring) : (s.setRing r x).watchdog = s.watchdog := rfl
@[simp] theorem State.setRing_power (r : Nat) (x : Ring) : (s.setRing r x).power = s.power := rfl
@[simp] theorem State.setRing_hostLink (r : Nat) (x : Ring) : (s.setRing r x).hostLink = s.hostLink := rfl
@[simp] theorem State.setRing_island (r : Nat) (x : Ring) : (s.setRing r x).island = s.island := rfl
@[simp] theorem State.setRing_field (r : Nat) (x : Ring) : (s.setRing r x).field = s.field := rfl
@[simp] theorem State.setRing_modulators (r : Nat) (x : Ring) : (s.setRing r x).modulators = s.modulators := rfl
@[simp] theorem State.setRing_arch (r : Nat) (x : Ring) : (s.setRing r x).arch = s.arch := rfl
@[simp] theorem State.setRing_links (r : Nat) (x : Ring) : (s.setRing r x).links = s.links := rfl
@[simp] theorem State.setRing_stations (r : Nat) (x : Ring) : (s.setRing r x).stations = s.stations := rfl
@[simp] theorem State.setRing_train (r : Nat) (x : Ring) : (s.setRing r x).train = s.train := rfl
@[simp] theorem State.setRing_cans (r : Nat) (x : Ring) : (s.setRing r x).cans = s.cans := rfl
@[simp] theorem State.setRing_serials (r : Nat) (x : Ring) : (s.setRing r x).serials = s.serials := rfl
@[simp] theorem State.setRing_canRx (r : Nat) (x : Ring) : (s.setRing r x).canRx = s.canRx := rfl
@[simp] theorem State.setRing_serialRx (r : Nat) (x : Ring) : (s.setRing r x).serialRx = s.serialRx := rfl

/-! ## setChannel -/

@[simp] theorem State.setChannel_pending (c : Nat) (x : Channel) : (s.setChannel c x).pending = s.pending := rfl
@[simp] theorem State.setChannel_lastRead (c : Nat) (x : Channel) : (s.setChannel c x).lastRead = s.lastRead := rfl
@[simp] theorem State.setChannel_fresh (c : Nat) (x : Channel) : (s.setChannel c x).fresh = s.fresh := rfl
@[simp] theorem State.setChannel_variant (c : Nat) (x : Channel) : (s.setChannel c x).variant = s.variant := rfl
@[simp] theorem State.setChannel_noReserves (c : Nat) (x : Channel) : (s.setChannel c x).noReserves = s.noReserves := rfl
@[simp] theorem State.setChannel_md (c : Nat) (x : Channel) : (s.setChannel c x).md = s.md := rfl
@[simp] theorem State.setChannel_work (c : Nat) (x : Channel) : (s.setChannel c x).work = s.work := rfl
@[simp] theorem State.setChannel_tick (c : Nat) (x : Channel) : (s.setChannel c x).tick = s.tick := rfl
@[simp] theorem State.setChannel_perStaged (c : Nat) (x : Channel) : (s.setChannel c x).perStaged = s.perStaged := rfl
@[simp] theorem State.setChannel_ovrTile (c : Nat) (x : Channel) : (s.setChannel c x).ovrTile = s.ovrTile := rfl
@[simp] theorem State.setChannel_ovrConsec (c : Nat) (x : Channel) : (s.setChannel c x).ovrConsec = s.ovrConsec := rfl
@[simp] theorem State.setChannel_ovrValid (c : Nat) (x : Channel) : (s.setChannel c x).ovrValid = s.ovrValid := rfl
@[simp] theorem State.setChannel_ovrTask (c : Nat) (x : Channel) : (s.setChannel c x).ovrTask = s.ovrTask := rfl
@[simp] theorem State.setChannel_tiles (c : Nat) (x : Channel) : (s.setChannel c x).tiles = s.tiles := rfl
@[simp] theorem State.setChannel_dies (c : Nat) (x : Channel) : (s.setChannel c x).dies = s.dies := rfl
@[simp] theorem State.setChannel_upsets (c : Nat) (x : Channel) : (s.setChannel c x).upsets = s.upsets := rfl
@[simp] theorem State.setChannel_persist (c : Nat) (x : Channel) : (s.setChannel c x).persist = s.persist := rfl
@[simp] theorem State.setChannel_online (c : Nat) (x : Channel) : (s.setChannel c x).online = s.online := rfl
@[simp] theorem State.setChannel_rings (c : Nat) (x : Channel) : (s.setChannel c x).rings = s.rings := rfl
@[simp] theorem State.setChannel_channels (c : Nat) (x : Channel) : (s.setChannel c x).channels = Tbl.set {} s.channels c x := rfl
@[simp] theorem State.setChannel_refusedSends (c : Nat) (x : Channel) : (s.setChannel c x).refusedSends = s.refusedSends := rfl
@[simp] theorem State.setChannel_trackDiscards (c : Nat) (x : Channel) : (s.setChannel c x).trackDiscards = s.trackDiscards := rfl
@[simp] theorem State.setChannel_locks (c : Nat) (x : Channel) : (s.setChannel c x).locks = s.locks := rfl
@[simp] theorem State.setChannel_msix (c : Nat) (x : Channel) : (s.setChannel c x).msix = s.msix := rfl
@[simp] theorem State.setChannel_foremanEvents (c : Nat) (x : Channel) : (s.setChannel c x).foremanEvents = s.foremanEvents := rfl
@[simp] theorem State.setChannel_recorder (c : Nat) (x : Channel) : (s.setChannel c x).recorder = s.recorder := rfl
@[simp] theorem State.setChannel_pages (c : Nat) (x : Channel) : (s.setChannel c x).pages = s.pages := rfl
@[simp] theorem State.setChannel_setup (c : Nat) (x : Channel) : (s.setChannel c x).setup = s.setup := rfl
@[simp] theorem State.setChannel_setupTick (c : Nat) (x : Channel) : (s.setChannel c x).setupTick = s.setupTick := rfl
@[simp] theorem State.setChannel_setupStart (c : Nat) (x : Channel) : (s.setChannel c x).setupStart = s.setupStart := rfl
@[simp] theorem State.setChannel_latches (c : Nat) (x : Channel) : (s.setChannel c x).latches = s.latches := rfl
@[simp] theorem State.setChannel_ignored (c : Nat) (x : Channel) : (s.setChannel c x).ignored = s.ignored := rfl
@[simp] theorem State.setChannel_ringCreds (c : Nat) (x : Channel) : (s.setChannel c x).ringCreds = s.ringCreds := rfl
@[simp] theorem State.setChannel_sessions (c : Nat) (x : Channel) : (s.setChannel c x).sessions = s.sessions := rfl
@[simp] theorem State.setChannel_sessionOut (c : Nat) (x : Channel) : (s.setChannel c x).sessionOut = s.sessionOut := rfl
@[simp] theorem State.setChannel_programCred (c : Nat) (x : Channel) : (s.setChannel c x).programCred = s.programCred := rfl
@[simp] theorem State.setChannel_identity (c : Nat) (x : Channel) : (s.setChannel c x).identity = s.identity := rfl
@[simp] theorem State.setChannel_firmware (c : Nat) (x : Channel) : (s.setChannel c x).firmware = s.firmware := rfl
@[simp] theorem State.setChannel_debugOpen (c : Nat) (x : Channel) : (s.setChannel c x).debugOpen = s.debugOpen := rfl
@[simp] theorem State.setChannel_clock (c : Nat) (x : Channel) : (s.setChannel c x).clock = s.clock := rfl
@[simp] theorem State.setChannel_watchdog (c : Nat) (x : Channel) : (s.setChannel c x).watchdog = s.watchdog := rfl
@[simp] theorem State.setChannel_power (c : Nat) (x : Channel) : (s.setChannel c x).power = s.power := rfl
@[simp] theorem State.setChannel_hostLink (c : Nat) (x : Channel) : (s.setChannel c x).hostLink = s.hostLink := rfl
@[simp] theorem State.setChannel_island (c : Nat) (x : Channel) : (s.setChannel c x).island = s.island := rfl
@[simp] theorem State.setChannel_field (c : Nat) (x : Channel) : (s.setChannel c x).field = s.field := rfl
@[simp] theorem State.setChannel_modulators (c : Nat) (x : Channel) : (s.setChannel c x).modulators = s.modulators := rfl
@[simp] theorem State.setChannel_arch (c : Nat) (x : Channel) : (s.setChannel c x).arch = s.arch := rfl
@[simp] theorem State.setChannel_links (c : Nat) (x : Channel) : (s.setChannel c x).links = s.links := rfl
@[simp] theorem State.setChannel_stations (c : Nat) (x : Channel) : (s.setChannel c x).stations = s.stations := rfl
@[simp] theorem State.setChannel_train (c : Nat) (x : Channel) : (s.setChannel c x).train = s.train := rfl
@[simp] theorem State.setChannel_cans (c : Nat) (x : Channel) : (s.setChannel c x).cans = s.cans := rfl
@[simp] theorem State.setChannel_serials (c : Nat) (x : Channel) : (s.setChannel c x).serials = s.serials := rfl
@[simp] theorem State.setChannel_canRx (c : Nat) (x : Channel) : (s.setChannel c x).canRx = s.canRx := rfl
@[simp] theorem State.setChannel_serialRx (c : Nat) (x : Channel) : (s.setChannel c x).serialRx = s.serialRx := rfl

/-! ## setLock -/

@[simp] theorem State.setLock_pending (k : Nat) (x : Lock) : (s.setLock k x).pending = s.pending := rfl
@[simp] theorem State.setLock_lastRead (k : Nat) (x : Lock) : (s.setLock k x).lastRead = s.lastRead := rfl
@[simp] theorem State.setLock_fresh (k : Nat) (x : Lock) : (s.setLock k x).fresh = s.fresh := rfl
@[simp] theorem State.setLock_variant (k : Nat) (x : Lock) : (s.setLock k x).variant = s.variant := rfl
@[simp] theorem State.setLock_noReserves (k : Nat) (x : Lock) : (s.setLock k x).noReserves = s.noReserves := rfl
@[simp] theorem State.setLock_md (k : Nat) (x : Lock) : (s.setLock k x).md = s.md := rfl
@[simp] theorem State.setLock_work (k : Nat) (x : Lock) : (s.setLock k x).work = s.work := rfl
@[simp] theorem State.setLock_tick (k : Nat) (x : Lock) : (s.setLock k x).tick = s.tick := rfl
@[simp] theorem State.setLock_perStaged (k : Nat) (x : Lock) : (s.setLock k x).perStaged = s.perStaged := rfl
@[simp] theorem State.setLock_ovrTile (k : Nat) (x : Lock) : (s.setLock k x).ovrTile = s.ovrTile := rfl
@[simp] theorem State.setLock_ovrConsec (k : Nat) (x : Lock) : (s.setLock k x).ovrConsec = s.ovrConsec := rfl
@[simp] theorem State.setLock_ovrValid (k : Nat) (x : Lock) : (s.setLock k x).ovrValid = s.ovrValid := rfl
@[simp] theorem State.setLock_ovrTask (k : Nat) (x : Lock) : (s.setLock k x).ovrTask = s.ovrTask := rfl
@[simp] theorem State.setLock_tiles (k : Nat) (x : Lock) : (s.setLock k x).tiles = s.tiles := rfl
@[simp] theorem State.setLock_dies (k : Nat) (x : Lock) : (s.setLock k x).dies = s.dies := rfl
@[simp] theorem State.setLock_upsets (k : Nat) (x : Lock) : (s.setLock k x).upsets = s.upsets := rfl
@[simp] theorem State.setLock_persist (k : Nat) (x : Lock) : (s.setLock k x).persist = s.persist := rfl
@[simp] theorem State.setLock_online (k : Nat) (x : Lock) : (s.setLock k x).online = s.online := rfl
@[simp] theorem State.setLock_rings (k : Nat) (x : Lock) : (s.setLock k x).rings = s.rings := rfl
@[simp] theorem State.setLock_channels (k : Nat) (x : Lock) : (s.setLock k x).channels = s.channels := rfl
@[simp] theorem State.setLock_refusedSends (k : Nat) (x : Lock) : (s.setLock k x).refusedSends = s.refusedSends := rfl
@[simp] theorem State.setLock_trackDiscards (k : Nat) (x : Lock) : (s.setLock k x).trackDiscards = s.trackDiscards := rfl
@[simp] theorem State.setLock_locks (k : Nat) (x : Lock) : (s.setLock k x).locks = Tbl.set {} s.locks k x := rfl
@[simp] theorem State.setLock_msix (k : Nat) (x : Lock) : (s.setLock k x).msix = s.msix := rfl
@[simp] theorem State.setLock_foremanEvents (k : Nat) (x : Lock) : (s.setLock k x).foremanEvents = s.foremanEvents := rfl
@[simp] theorem State.setLock_recorder (k : Nat) (x : Lock) : (s.setLock k x).recorder = s.recorder := rfl
@[simp] theorem State.setLock_pages (k : Nat) (x : Lock) : (s.setLock k x).pages = s.pages := rfl
@[simp] theorem State.setLock_setup (k : Nat) (x : Lock) : (s.setLock k x).setup = s.setup := rfl
@[simp] theorem State.setLock_setupTick (k : Nat) (x : Lock) : (s.setLock k x).setupTick = s.setupTick := rfl
@[simp] theorem State.setLock_setupStart (k : Nat) (x : Lock) : (s.setLock k x).setupStart = s.setupStart := rfl
@[simp] theorem State.setLock_latches (k : Nat) (x : Lock) : (s.setLock k x).latches = s.latches := rfl
@[simp] theorem State.setLock_ignored (k : Nat) (x : Lock) : (s.setLock k x).ignored = s.ignored := rfl
@[simp] theorem State.setLock_ringCreds (k : Nat) (x : Lock) : (s.setLock k x).ringCreds = s.ringCreds := rfl
@[simp] theorem State.setLock_sessions (k : Nat) (x : Lock) : (s.setLock k x).sessions = s.sessions := rfl
@[simp] theorem State.setLock_sessionOut (k : Nat) (x : Lock) : (s.setLock k x).sessionOut = s.sessionOut := rfl
@[simp] theorem State.setLock_programCred (k : Nat) (x : Lock) : (s.setLock k x).programCred = s.programCred := rfl
@[simp] theorem State.setLock_identity (k : Nat) (x : Lock) : (s.setLock k x).identity = s.identity := rfl
@[simp] theorem State.setLock_firmware (k : Nat) (x : Lock) : (s.setLock k x).firmware = s.firmware := rfl
@[simp] theorem State.setLock_debugOpen (k : Nat) (x : Lock) : (s.setLock k x).debugOpen = s.debugOpen := rfl
@[simp] theorem State.setLock_clock (k : Nat) (x : Lock) : (s.setLock k x).clock = s.clock := rfl
@[simp] theorem State.setLock_watchdog (k : Nat) (x : Lock) : (s.setLock k x).watchdog = s.watchdog := rfl
@[simp] theorem State.setLock_power (k : Nat) (x : Lock) : (s.setLock k x).power = s.power := rfl
@[simp] theorem State.setLock_hostLink (k : Nat) (x : Lock) : (s.setLock k x).hostLink = s.hostLink := rfl
@[simp] theorem State.setLock_island (k : Nat) (x : Lock) : (s.setLock k x).island = s.island := rfl
@[simp] theorem State.setLock_field (k : Nat) (x : Lock) : (s.setLock k x).field = s.field := rfl
@[simp] theorem State.setLock_modulators (k : Nat) (x : Lock) : (s.setLock k x).modulators = s.modulators := rfl
@[simp] theorem State.setLock_arch (k : Nat) (x : Lock) : (s.setLock k x).arch = s.arch := rfl
@[simp] theorem State.setLock_links (k : Nat) (x : Lock) : (s.setLock k x).links = s.links := rfl
@[simp] theorem State.setLock_stations (k : Nat) (x : Lock) : (s.setLock k x).stations = s.stations := rfl
@[simp] theorem State.setLock_train (k : Nat) (x : Lock) : (s.setLock k x).train = s.train := rfl
@[simp] theorem State.setLock_cans (k : Nat) (x : Lock) : (s.setLock k x).cans = s.cans := rfl
@[simp] theorem State.setLock_serials (k : Nat) (x : Lock) : (s.setLock k x).serials = s.serials := rfl
@[simp] theorem State.setLock_canRx (k : Nat) (x : Lock) : (s.setLock k x).canRx = s.canRx := rfl
@[simp] theorem State.setLock_serialRx (k : Nat) (x : Lock) : (s.setLock k x).serialRx = s.serialRx := rfl

/-! ## setLink -/

@[simp] theorem State.setLink_pending (k : Nat) (x : Link) : (s.setLink k x).pending = s.pending := rfl
@[simp] theorem State.setLink_lastRead (k : Nat) (x : Link) : (s.setLink k x).lastRead = s.lastRead := rfl
@[simp] theorem State.setLink_fresh (k : Nat) (x : Link) : (s.setLink k x).fresh = s.fresh := rfl
@[simp] theorem State.setLink_variant (k : Nat) (x : Link) : (s.setLink k x).variant = s.variant := rfl
@[simp] theorem State.setLink_noReserves (k : Nat) (x : Link) : (s.setLink k x).noReserves = s.noReserves := rfl
@[simp] theorem State.setLink_md (k : Nat) (x : Link) : (s.setLink k x).md = s.md := rfl
@[simp] theorem State.setLink_work (k : Nat) (x : Link) : (s.setLink k x).work = s.work := rfl
@[simp] theorem State.setLink_tick (k : Nat) (x : Link) : (s.setLink k x).tick = s.tick := rfl
@[simp] theorem State.setLink_perStaged (k : Nat) (x : Link) : (s.setLink k x).perStaged = s.perStaged := rfl
@[simp] theorem State.setLink_ovrTile (k : Nat) (x : Link) : (s.setLink k x).ovrTile = s.ovrTile := rfl
@[simp] theorem State.setLink_ovrConsec (k : Nat) (x : Link) : (s.setLink k x).ovrConsec = s.ovrConsec := rfl
@[simp] theorem State.setLink_ovrValid (k : Nat) (x : Link) : (s.setLink k x).ovrValid = s.ovrValid := rfl
@[simp] theorem State.setLink_ovrTask (k : Nat) (x : Link) : (s.setLink k x).ovrTask = s.ovrTask := rfl
@[simp] theorem State.setLink_tiles (k : Nat) (x : Link) : (s.setLink k x).tiles = s.tiles := rfl
@[simp] theorem State.setLink_dies (k : Nat) (x : Link) : (s.setLink k x).dies = s.dies := rfl
@[simp] theorem State.setLink_upsets (k : Nat) (x : Link) : (s.setLink k x).upsets = s.upsets := rfl
@[simp] theorem State.setLink_persist (k : Nat) (x : Link) : (s.setLink k x).persist = s.persist := rfl
@[simp] theorem State.setLink_online (k : Nat) (x : Link) : (s.setLink k x).online = s.online := rfl
@[simp] theorem State.setLink_rings (k : Nat) (x : Link) : (s.setLink k x).rings = s.rings := rfl
@[simp] theorem State.setLink_channels (k : Nat) (x : Link) : (s.setLink k x).channels = s.channels := rfl
@[simp] theorem State.setLink_refusedSends (k : Nat) (x : Link) : (s.setLink k x).refusedSends = s.refusedSends := rfl
@[simp] theorem State.setLink_trackDiscards (k : Nat) (x : Link) : (s.setLink k x).trackDiscards = s.trackDiscards := rfl
@[simp] theorem State.setLink_locks (k : Nat) (x : Link) : (s.setLink k x).locks = s.locks := rfl
@[simp] theorem State.setLink_msix (k : Nat) (x : Link) : (s.setLink k x).msix = s.msix := rfl
@[simp] theorem State.setLink_foremanEvents (k : Nat) (x : Link) : (s.setLink k x).foremanEvents = s.foremanEvents := rfl
@[simp] theorem State.setLink_recorder (k : Nat) (x : Link) : (s.setLink k x).recorder = s.recorder := rfl
@[simp] theorem State.setLink_pages (k : Nat) (x : Link) : (s.setLink k x).pages = s.pages := rfl
@[simp] theorem State.setLink_setup (k : Nat) (x : Link) : (s.setLink k x).setup = s.setup := rfl
@[simp] theorem State.setLink_setupTick (k : Nat) (x : Link) : (s.setLink k x).setupTick = s.setupTick := rfl
@[simp] theorem State.setLink_setupStart (k : Nat) (x : Link) : (s.setLink k x).setupStart = s.setupStart := rfl
@[simp] theorem State.setLink_latches (k : Nat) (x : Link) : (s.setLink k x).latches = s.latches := rfl
@[simp] theorem State.setLink_ignored (k : Nat) (x : Link) : (s.setLink k x).ignored = s.ignored := rfl
@[simp] theorem State.setLink_ringCreds (k : Nat) (x : Link) : (s.setLink k x).ringCreds = s.ringCreds := rfl
@[simp] theorem State.setLink_sessions (k : Nat) (x : Link) : (s.setLink k x).sessions = s.sessions := rfl
@[simp] theorem State.setLink_sessionOut (k : Nat) (x : Link) : (s.setLink k x).sessionOut = s.sessionOut := rfl
@[simp] theorem State.setLink_programCred (k : Nat) (x : Link) : (s.setLink k x).programCred = s.programCred := rfl
@[simp] theorem State.setLink_identity (k : Nat) (x : Link) : (s.setLink k x).identity = s.identity := rfl
@[simp] theorem State.setLink_firmware (k : Nat) (x : Link) : (s.setLink k x).firmware = s.firmware := rfl
@[simp] theorem State.setLink_debugOpen (k : Nat) (x : Link) : (s.setLink k x).debugOpen = s.debugOpen := rfl
@[simp] theorem State.setLink_clock (k : Nat) (x : Link) : (s.setLink k x).clock = s.clock := rfl
@[simp] theorem State.setLink_watchdog (k : Nat) (x : Link) : (s.setLink k x).watchdog = s.watchdog := rfl
@[simp] theorem State.setLink_power (k : Nat) (x : Link) : (s.setLink k x).power = s.power := rfl
@[simp] theorem State.setLink_hostLink (k : Nat) (x : Link) : (s.setLink k x).hostLink = s.hostLink := rfl
@[simp] theorem State.setLink_island (k : Nat) (x : Link) : (s.setLink k x).island = s.island := rfl
@[simp] theorem State.setLink_field (k : Nat) (x : Link) : (s.setLink k x).field = s.field := rfl
@[simp] theorem State.setLink_modulators (k : Nat) (x : Link) : (s.setLink k x).modulators = s.modulators := rfl
@[simp] theorem State.setLink_arch (k : Nat) (x : Link) : (s.setLink k x).arch = s.arch := rfl
@[simp] theorem State.setLink_links (k : Nat) (x : Link) : (s.setLink k x).links = Tbl.set {} s.links k x := rfl
@[simp] theorem State.setLink_stations (k : Nat) (x : Link) : (s.setLink k x).stations = s.stations := rfl
@[simp] theorem State.setLink_train (k : Nat) (x : Link) : (s.setLink k x).train = s.train := rfl
@[simp] theorem State.setLink_cans (k : Nat) (x : Link) : (s.setLink k x).cans = s.cans := rfl
@[simp] theorem State.setLink_serials (k : Nat) (x : Link) : (s.setLink k x).serials = s.serials := rfl
@[simp] theorem State.setLink_canRx (k : Nat) (x : Link) : (s.setLink k x).canRx = s.canRx := rfl
@[simp] theorem State.setLink_serialRx (k : Nat) (x : Link) : (s.setLink k x).serialRx = s.serialRx := rfl

/-! ## setStation -/

@[simp] theorem State.setStation_pending (i : Nat) (x : Station) : (s.setStation i x).pending = s.pending := rfl
@[simp] theorem State.setStation_lastRead (i : Nat) (x : Station) : (s.setStation i x).lastRead = s.lastRead := rfl
@[simp] theorem State.setStation_fresh (i : Nat) (x : Station) : (s.setStation i x).fresh = s.fresh := rfl
@[simp] theorem State.setStation_variant (i : Nat) (x : Station) : (s.setStation i x).variant = s.variant := rfl
@[simp] theorem State.setStation_noReserves (i : Nat) (x : Station) : (s.setStation i x).noReserves = s.noReserves := rfl
@[simp] theorem State.setStation_md (i : Nat) (x : Station) : (s.setStation i x).md = s.md := rfl
@[simp] theorem State.setStation_work (i : Nat) (x : Station) : (s.setStation i x).work = s.work := rfl
@[simp] theorem State.setStation_tick (i : Nat) (x : Station) : (s.setStation i x).tick = s.tick := rfl
@[simp] theorem State.setStation_perStaged (i : Nat) (x : Station) : (s.setStation i x).perStaged = s.perStaged := rfl
@[simp] theorem State.setStation_ovrTile (i : Nat) (x : Station) : (s.setStation i x).ovrTile = s.ovrTile := rfl
@[simp] theorem State.setStation_ovrConsec (i : Nat) (x : Station) : (s.setStation i x).ovrConsec = s.ovrConsec := rfl
@[simp] theorem State.setStation_ovrValid (i : Nat) (x : Station) : (s.setStation i x).ovrValid = s.ovrValid := rfl
@[simp] theorem State.setStation_ovrTask (i : Nat) (x : Station) : (s.setStation i x).ovrTask = s.ovrTask := rfl
@[simp] theorem State.setStation_tiles (i : Nat) (x : Station) : (s.setStation i x).tiles = s.tiles := rfl
@[simp] theorem State.setStation_dies (i : Nat) (x : Station) : (s.setStation i x).dies = s.dies := rfl
@[simp] theorem State.setStation_upsets (i : Nat) (x : Station) : (s.setStation i x).upsets = s.upsets := rfl
@[simp] theorem State.setStation_persist (i : Nat) (x : Station) : (s.setStation i x).persist = s.persist := rfl
@[simp] theorem State.setStation_online (i : Nat) (x : Station) : (s.setStation i x).online = s.online := rfl
@[simp] theorem State.setStation_rings (i : Nat) (x : Station) : (s.setStation i x).rings = s.rings := rfl
@[simp] theorem State.setStation_channels (i : Nat) (x : Station) : (s.setStation i x).channels = s.channels := rfl
@[simp] theorem State.setStation_refusedSends (i : Nat) (x : Station) : (s.setStation i x).refusedSends = s.refusedSends := rfl
@[simp] theorem State.setStation_trackDiscards (i : Nat) (x : Station) : (s.setStation i x).trackDiscards = s.trackDiscards := rfl
@[simp] theorem State.setStation_locks (i : Nat) (x : Station) : (s.setStation i x).locks = s.locks := rfl
@[simp] theorem State.setStation_msix (i : Nat) (x : Station) : (s.setStation i x).msix = s.msix := rfl
@[simp] theorem State.setStation_foremanEvents (i : Nat) (x : Station) : (s.setStation i x).foremanEvents = s.foremanEvents := rfl
@[simp] theorem State.setStation_recorder (i : Nat) (x : Station) : (s.setStation i x).recorder = s.recorder := rfl
@[simp] theorem State.setStation_pages (i : Nat) (x : Station) : (s.setStation i x).pages = s.pages := rfl
@[simp] theorem State.setStation_setup (i : Nat) (x : Station) : (s.setStation i x).setup = s.setup := rfl
@[simp] theorem State.setStation_setupTick (i : Nat) (x : Station) : (s.setStation i x).setupTick = s.setupTick := rfl
@[simp] theorem State.setStation_setupStart (i : Nat) (x : Station) : (s.setStation i x).setupStart = s.setupStart := rfl
@[simp] theorem State.setStation_latches (i : Nat) (x : Station) : (s.setStation i x).latches = s.latches := rfl
@[simp] theorem State.setStation_ignored (i : Nat) (x : Station) : (s.setStation i x).ignored = s.ignored := rfl
@[simp] theorem State.setStation_ringCreds (i : Nat) (x : Station) : (s.setStation i x).ringCreds = s.ringCreds := rfl
@[simp] theorem State.setStation_sessions (i : Nat) (x : Station) : (s.setStation i x).sessions = s.sessions := rfl
@[simp] theorem State.setStation_sessionOut (i : Nat) (x : Station) : (s.setStation i x).sessionOut = s.sessionOut := rfl
@[simp] theorem State.setStation_programCred (i : Nat) (x : Station) : (s.setStation i x).programCred = s.programCred := rfl
@[simp] theorem State.setStation_identity (i : Nat) (x : Station) : (s.setStation i x).identity = s.identity := rfl
@[simp] theorem State.setStation_firmware (i : Nat) (x : Station) : (s.setStation i x).firmware = s.firmware := rfl
@[simp] theorem State.setStation_debugOpen (i : Nat) (x : Station) : (s.setStation i x).debugOpen = s.debugOpen := rfl
@[simp] theorem State.setStation_clock (i : Nat) (x : Station) : (s.setStation i x).clock = s.clock := rfl
@[simp] theorem State.setStation_watchdog (i : Nat) (x : Station) : (s.setStation i x).watchdog = s.watchdog := rfl
@[simp] theorem State.setStation_power (i : Nat) (x : Station) : (s.setStation i x).power = s.power := rfl
@[simp] theorem State.setStation_hostLink (i : Nat) (x : Station) : (s.setStation i x).hostLink = s.hostLink := rfl
@[simp] theorem State.setStation_island (i : Nat) (x : Station) : (s.setStation i x).island = s.island := rfl
@[simp] theorem State.setStation_field (i : Nat) (x : Station) : (s.setStation i x).field = s.field := rfl
@[simp] theorem State.setStation_modulators (i : Nat) (x : Station) : (s.setStation i x).modulators = s.modulators := rfl
@[simp] theorem State.setStation_arch (i : Nat) (x : Station) : (s.setStation i x).arch = s.arch := rfl
@[simp] theorem State.setStation_links (i : Nat) (x : Station) : (s.setStation i x).links = s.links := rfl
@[simp] theorem State.setStation_stations (i : Nat) (x : Station) : (s.setStation i x).stations = Tbl.set {} s.stations i x := rfl
@[simp] theorem State.setStation_train (i : Nat) (x : Station) : (s.setStation i x).train = s.train := rfl
@[simp] theorem State.setStation_cans (i : Nat) (x : Station) : (s.setStation i x).cans = s.cans := rfl
@[simp] theorem State.setStation_serials (i : Nat) (x : Station) : (s.setStation i x).serials = s.serials := rfl
@[simp] theorem State.setStation_canRx (i : Nat) (x : Station) : (s.setStation i x).canRx = s.canRx := rfl
@[simp] theorem State.setStation_serialRx (i : Nat) (x : Station) : (s.setStation i x).serialRx = s.serialRx := rfl

/-! ## setCan -/

@[simp] theorem State.setCan_pending (c : Nat) (x : Can) : (s.setCan c x).pending = s.pending := rfl
@[simp] theorem State.setCan_lastRead (c : Nat) (x : Can) : (s.setCan c x).lastRead = s.lastRead := rfl
@[simp] theorem State.setCan_fresh (c : Nat) (x : Can) : (s.setCan c x).fresh = s.fresh := rfl
@[simp] theorem State.setCan_variant (c : Nat) (x : Can) : (s.setCan c x).variant = s.variant := rfl
@[simp] theorem State.setCan_noReserves (c : Nat) (x : Can) : (s.setCan c x).noReserves = s.noReserves := rfl
@[simp] theorem State.setCan_md (c : Nat) (x : Can) : (s.setCan c x).md = s.md := rfl
@[simp] theorem State.setCan_work (c : Nat) (x : Can) : (s.setCan c x).work = s.work := rfl
@[simp] theorem State.setCan_tick (c : Nat) (x : Can) : (s.setCan c x).tick = s.tick := rfl
@[simp] theorem State.setCan_perStaged (c : Nat) (x : Can) : (s.setCan c x).perStaged = s.perStaged := rfl
@[simp] theorem State.setCan_ovrTile (c : Nat) (x : Can) : (s.setCan c x).ovrTile = s.ovrTile := rfl
@[simp] theorem State.setCan_ovrConsec (c : Nat) (x : Can) : (s.setCan c x).ovrConsec = s.ovrConsec := rfl
@[simp] theorem State.setCan_ovrValid (c : Nat) (x : Can) : (s.setCan c x).ovrValid = s.ovrValid := rfl
@[simp] theorem State.setCan_ovrTask (c : Nat) (x : Can) : (s.setCan c x).ovrTask = s.ovrTask := rfl
@[simp] theorem State.setCan_tiles (c : Nat) (x : Can) : (s.setCan c x).tiles = s.tiles := rfl
@[simp] theorem State.setCan_dies (c : Nat) (x : Can) : (s.setCan c x).dies = s.dies := rfl
@[simp] theorem State.setCan_upsets (c : Nat) (x : Can) : (s.setCan c x).upsets = s.upsets := rfl
@[simp] theorem State.setCan_persist (c : Nat) (x : Can) : (s.setCan c x).persist = s.persist := rfl
@[simp] theorem State.setCan_online (c : Nat) (x : Can) : (s.setCan c x).online = s.online := rfl
@[simp] theorem State.setCan_rings (c : Nat) (x : Can) : (s.setCan c x).rings = s.rings := rfl
@[simp] theorem State.setCan_channels (c : Nat) (x : Can) : (s.setCan c x).channels = s.channels := rfl
@[simp] theorem State.setCan_refusedSends (c : Nat) (x : Can) : (s.setCan c x).refusedSends = s.refusedSends := rfl
@[simp] theorem State.setCan_trackDiscards (c : Nat) (x : Can) : (s.setCan c x).trackDiscards = s.trackDiscards := rfl
@[simp] theorem State.setCan_locks (c : Nat) (x : Can) : (s.setCan c x).locks = s.locks := rfl
@[simp] theorem State.setCan_msix (c : Nat) (x : Can) : (s.setCan c x).msix = s.msix := rfl
@[simp] theorem State.setCan_foremanEvents (c : Nat) (x : Can) : (s.setCan c x).foremanEvents = s.foremanEvents := rfl
@[simp] theorem State.setCan_recorder (c : Nat) (x : Can) : (s.setCan c x).recorder = s.recorder := rfl
@[simp] theorem State.setCan_pages (c : Nat) (x : Can) : (s.setCan c x).pages = s.pages := rfl
@[simp] theorem State.setCan_setup (c : Nat) (x : Can) : (s.setCan c x).setup = s.setup := rfl
@[simp] theorem State.setCan_setupTick (c : Nat) (x : Can) : (s.setCan c x).setupTick = s.setupTick := rfl
@[simp] theorem State.setCan_setupStart (c : Nat) (x : Can) : (s.setCan c x).setupStart = s.setupStart := rfl
@[simp] theorem State.setCan_latches (c : Nat) (x : Can) : (s.setCan c x).latches = s.latches := rfl
@[simp] theorem State.setCan_ignored (c : Nat) (x : Can) : (s.setCan c x).ignored = s.ignored := rfl
@[simp] theorem State.setCan_ringCreds (c : Nat) (x : Can) : (s.setCan c x).ringCreds = s.ringCreds := rfl
@[simp] theorem State.setCan_sessions (c : Nat) (x : Can) : (s.setCan c x).sessions = s.sessions := rfl
@[simp] theorem State.setCan_sessionOut (c : Nat) (x : Can) : (s.setCan c x).sessionOut = s.sessionOut := rfl
@[simp] theorem State.setCan_programCred (c : Nat) (x : Can) : (s.setCan c x).programCred = s.programCred := rfl
@[simp] theorem State.setCan_identity (c : Nat) (x : Can) : (s.setCan c x).identity = s.identity := rfl
@[simp] theorem State.setCan_firmware (c : Nat) (x : Can) : (s.setCan c x).firmware = s.firmware := rfl
@[simp] theorem State.setCan_debugOpen (c : Nat) (x : Can) : (s.setCan c x).debugOpen = s.debugOpen := rfl
@[simp] theorem State.setCan_clock (c : Nat) (x : Can) : (s.setCan c x).clock = s.clock := rfl
@[simp] theorem State.setCan_watchdog (c : Nat) (x : Can) : (s.setCan c x).watchdog = s.watchdog := rfl
@[simp] theorem State.setCan_power (c : Nat) (x : Can) : (s.setCan c x).power = s.power := rfl
@[simp] theorem State.setCan_hostLink (c : Nat) (x : Can) : (s.setCan c x).hostLink = s.hostLink := rfl
@[simp] theorem State.setCan_island (c : Nat) (x : Can) : (s.setCan c x).island = s.island := rfl
@[simp] theorem State.setCan_field (c : Nat) (x : Can) : (s.setCan c x).field = s.field := rfl
@[simp] theorem State.setCan_modulators (c : Nat) (x : Can) : (s.setCan c x).modulators = s.modulators := rfl
@[simp] theorem State.setCan_arch (c : Nat) (x : Can) : (s.setCan c x).arch = s.arch := rfl
@[simp] theorem State.setCan_links (c : Nat) (x : Can) : (s.setCan c x).links = s.links := rfl
@[simp] theorem State.setCan_stations (c : Nat) (x : Can) : (s.setCan c x).stations = s.stations := rfl
@[simp] theorem State.setCan_train (c : Nat) (x : Can) : (s.setCan c x).train = s.train := rfl
@[simp] theorem State.setCan_cans (c : Nat) (x : Can) : (s.setCan c x).cans = Tbl.set {} s.cans c x := rfl
@[simp] theorem State.setCan_serials (c : Nat) (x : Can) : (s.setCan c x).serials = s.serials := rfl
@[simp] theorem State.setCan_canRx (c : Nat) (x : Can) : (s.setCan c x).canRx = s.canRx := rfl
@[simp] theorem State.setCan_serialRx (c : Nat) (x : Can) : (s.setCan c x).serialRx = s.serialRx := rfl

/-! ## setSerial -/

@[simp] theorem State.setSerial_pending (c : Nat) (x : Serial) : (s.setSerial c x).pending = s.pending := rfl
@[simp] theorem State.setSerial_lastRead (c : Nat) (x : Serial) : (s.setSerial c x).lastRead = s.lastRead := rfl
@[simp] theorem State.setSerial_fresh (c : Nat) (x : Serial) : (s.setSerial c x).fresh = s.fresh := rfl
@[simp] theorem State.setSerial_variant (c : Nat) (x : Serial) : (s.setSerial c x).variant = s.variant := rfl
@[simp] theorem State.setSerial_noReserves (c : Nat) (x : Serial) : (s.setSerial c x).noReserves = s.noReserves := rfl
@[simp] theorem State.setSerial_md (c : Nat) (x : Serial) : (s.setSerial c x).md = s.md := rfl
@[simp] theorem State.setSerial_work (c : Nat) (x : Serial) : (s.setSerial c x).work = s.work := rfl
@[simp] theorem State.setSerial_tick (c : Nat) (x : Serial) : (s.setSerial c x).tick = s.tick := rfl
@[simp] theorem State.setSerial_perStaged (c : Nat) (x : Serial) : (s.setSerial c x).perStaged = s.perStaged := rfl
@[simp] theorem State.setSerial_ovrTile (c : Nat) (x : Serial) : (s.setSerial c x).ovrTile = s.ovrTile := rfl
@[simp] theorem State.setSerial_ovrConsec (c : Nat) (x : Serial) : (s.setSerial c x).ovrConsec = s.ovrConsec := rfl
@[simp] theorem State.setSerial_ovrValid (c : Nat) (x : Serial) : (s.setSerial c x).ovrValid = s.ovrValid := rfl
@[simp] theorem State.setSerial_ovrTask (c : Nat) (x : Serial) : (s.setSerial c x).ovrTask = s.ovrTask := rfl
@[simp] theorem State.setSerial_tiles (c : Nat) (x : Serial) : (s.setSerial c x).tiles = s.tiles := rfl
@[simp] theorem State.setSerial_dies (c : Nat) (x : Serial) : (s.setSerial c x).dies = s.dies := rfl
@[simp] theorem State.setSerial_upsets (c : Nat) (x : Serial) : (s.setSerial c x).upsets = s.upsets := rfl
@[simp] theorem State.setSerial_persist (c : Nat) (x : Serial) : (s.setSerial c x).persist = s.persist := rfl
@[simp] theorem State.setSerial_online (c : Nat) (x : Serial) : (s.setSerial c x).online = s.online := rfl
@[simp] theorem State.setSerial_rings (c : Nat) (x : Serial) : (s.setSerial c x).rings = s.rings := rfl
@[simp] theorem State.setSerial_channels (c : Nat) (x : Serial) : (s.setSerial c x).channels = s.channels := rfl
@[simp] theorem State.setSerial_refusedSends (c : Nat) (x : Serial) : (s.setSerial c x).refusedSends = s.refusedSends := rfl
@[simp] theorem State.setSerial_trackDiscards (c : Nat) (x : Serial) : (s.setSerial c x).trackDiscards = s.trackDiscards := rfl
@[simp] theorem State.setSerial_locks (c : Nat) (x : Serial) : (s.setSerial c x).locks = s.locks := rfl
@[simp] theorem State.setSerial_msix (c : Nat) (x : Serial) : (s.setSerial c x).msix = s.msix := rfl
@[simp] theorem State.setSerial_foremanEvents (c : Nat) (x : Serial) : (s.setSerial c x).foremanEvents = s.foremanEvents := rfl
@[simp] theorem State.setSerial_recorder (c : Nat) (x : Serial) : (s.setSerial c x).recorder = s.recorder := rfl
@[simp] theorem State.setSerial_pages (c : Nat) (x : Serial) : (s.setSerial c x).pages = s.pages := rfl
@[simp] theorem State.setSerial_setup (c : Nat) (x : Serial) : (s.setSerial c x).setup = s.setup := rfl
@[simp] theorem State.setSerial_setupTick (c : Nat) (x : Serial) : (s.setSerial c x).setupTick = s.setupTick := rfl
@[simp] theorem State.setSerial_setupStart (c : Nat) (x : Serial) : (s.setSerial c x).setupStart = s.setupStart := rfl
@[simp] theorem State.setSerial_latches (c : Nat) (x : Serial) : (s.setSerial c x).latches = s.latches := rfl
@[simp] theorem State.setSerial_ignored (c : Nat) (x : Serial) : (s.setSerial c x).ignored = s.ignored := rfl
@[simp] theorem State.setSerial_ringCreds (c : Nat) (x : Serial) : (s.setSerial c x).ringCreds = s.ringCreds := rfl
@[simp] theorem State.setSerial_sessions (c : Nat) (x : Serial) : (s.setSerial c x).sessions = s.sessions := rfl
@[simp] theorem State.setSerial_sessionOut (c : Nat) (x : Serial) : (s.setSerial c x).sessionOut = s.sessionOut := rfl
@[simp] theorem State.setSerial_programCred (c : Nat) (x : Serial) : (s.setSerial c x).programCred = s.programCred := rfl
@[simp] theorem State.setSerial_identity (c : Nat) (x : Serial) : (s.setSerial c x).identity = s.identity := rfl
@[simp] theorem State.setSerial_firmware (c : Nat) (x : Serial) : (s.setSerial c x).firmware = s.firmware := rfl
@[simp] theorem State.setSerial_debugOpen (c : Nat) (x : Serial) : (s.setSerial c x).debugOpen = s.debugOpen := rfl
@[simp] theorem State.setSerial_clock (c : Nat) (x : Serial) : (s.setSerial c x).clock = s.clock := rfl
@[simp] theorem State.setSerial_watchdog (c : Nat) (x : Serial) : (s.setSerial c x).watchdog = s.watchdog := rfl
@[simp] theorem State.setSerial_power (c : Nat) (x : Serial) : (s.setSerial c x).power = s.power := rfl
@[simp] theorem State.setSerial_hostLink (c : Nat) (x : Serial) : (s.setSerial c x).hostLink = s.hostLink := rfl
@[simp] theorem State.setSerial_island (c : Nat) (x : Serial) : (s.setSerial c x).island = s.island := rfl
@[simp] theorem State.setSerial_field (c : Nat) (x : Serial) : (s.setSerial c x).field = s.field := rfl
@[simp] theorem State.setSerial_modulators (c : Nat) (x : Serial) : (s.setSerial c x).modulators = s.modulators := rfl
@[simp] theorem State.setSerial_arch (c : Nat) (x : Serial) : (s.setSerial c x).arch = s.arch := rfl
@[simp] theorem State.setSerial_links (c : Nat) (x : Serial) : (s.setSerial c x).links = s.links := rfl
@[simp] theorem State.setSerial_stations (c : Nat) (x : Serial) : (s.setSerial c x).stations = s.stations := rfl
@[simp] theorem State.setSerial_train (c : Nat) (x : Serial) : (s.setSerial c x).train = s.train := rfl
@[simp] theorem State.setSerial_cans (c : Nat) (x : Serial) : (s.setSerial c x).cans = s.cans := rfl
@[simp] theorem State.setSerial_serials (c : Nat) (x : Serial) : (s.setSerial c x).serials = Tbl.set {} s.serials c x := rfl
@[simp] theorem State.setSerial_canRx (c : Nat) (x : Serial) : (s.setSerial c x).canRx = s.canRx := rfl
@[simp] theorem State.setSerial_serialRx (c : Nat) (x : Serial) : (s.setSerial c x).serialRx = s.serialRx := rfl

/-! ## putSetup -/

@[simp] theorem State.putSetup_pending (i : Nat) (w : Word) : (s.putSetup i w).pending = s.pending := rfl
@[simp] theorem State.putSetup_lastRead (i : Nat) (w : Word) : (s.putSetup i w).lastRead = s.lastRead := rfl
@[simp] theorem State.putSetup_fresh (i : Nat) (w : Word) : (s.putSetup i w).fresh = s.fresh := rfl
@[simp] theorem State.putSetup_variant (i : Nat) (w : Word) : (s.putSetup i w).variant = s.variant := rfl
@[simp] theorem State.putSetup_noReserves (i : Nat) (w : Word) : (s.putSetup i w).noReserves = s.noReserves := rfl
@[simp] theorem State.putSetup_md (i : Nat) (w : Word) : (s.putSetup i w).md = s.md := rfl
@[simp] theorem State.putSetup_work (i : Nat) (w : Word) : (s.putSetup i w).work = s.work := rfl
@[simp] theorem State.putSetup_tick (i : Nat) (w : Word) : (s.putSetup i w).tick = s.tick := rfl
@[simp] theorem State.putSetup_perStaged (i : Nat) (w : Word) : (s.putSetup i w).perStaged = s.perStaged := rfl
@[simp] theorem State.putSetup_ovrTile (i : Nat) (w : Word) : (s.putSetup i w).ovrTile = s.ovrTile := rfl
@[simp] theorem State.putSetup_ovrConsec (i : Nat) (w : Word) : (s.putSetup i w).ovrConsec = s.ovrConsec := rfl
@[simp] theorem State.putSetup_ovrValid (i : Nat) (w : Word) : (s.putSetup i w).ovrValid = s.ovrValid := rfl
@[simp] theorem State.putSetup_ovrTask (i : Nat) (w : Word) : (s.putSetup i w).ovrTask = s.ovrTask := rfl
@[simp] theorem State.putSetup_tiles (i : Nat) (w : Word) : (s.putSetup i w).tiles = s.tiles := rfl
@[simp] theorem State.putSetup_dies (i : Nat) (w : Word) : (s.putSetup i w).dies = s.dies := rfl
@[simp] theorem State.putSetup_upsets (i : Nat) (w : Word) : (s.putSetup i w).upsets = s.upsets := rfl
@[simp] theorem State.putSetup_persist (i : Nat) (w : Word) : (s.putSetup i w).persist = s.persist := rfl
@[simp] theorem State.putSetup_online (i : Nat) (w : Word) : (s.putSetup i w).online = s.online := rfl
@[simp] theorem State.putSetup_rings (i : Nat) (w : Word) : (s.putSetup i w).rings = s.rings := rfl
@[simp] theorem State.putSetup_channels (i : Nat) (w : Word) : (s.putSetup i w).channels = s.channels := rfl
@[simp] theorem State.putSetup_refusedSends (i : Nat) (w : Word) : (s.putSetup i w).refusedSends = s.refusedSends := rfl
@[simp] theorem State.putSetup_trackDiscards (i : Nat) (w : Word) : (s.putSetup i w).trackDiscards = s.trackDiscards := rfl
@[simp] theorem State.putSetup_locks (i : Nat) (w : Word) : (s.putSetup i w).locks = s.locks := rfl
@[simp] theorem State.putSetup_msix (i : Nat) (w : Word) : (s.putSetup i w).msix = s.msix := rfl
@[simp] theorem State.putSetup_foremanEvents (i : Nat) (w : Word) : (s.putSetup i w).foremanEvents = s.foremanEvents := rfl
@[simp] theorem State.putSetup_recorder (i : Nat) (w : Word) : (s.putSetup i w).recorder = s.recorder := rfl
@[simp] theorem State.putSetup_pages (i : Nat) (w : Word) : (s.putSetup i w).pages = s.pages := rfl
@[simp] theorem State.putSetup_setup (i : Nat) (w : Word) : (s.putSetup i w).setup = Tbl.set none s.setup i (some w) := rfl
@[simp] theorem State.putSetup_setupTick (i : Nat) (w : Word) : (s.putSetup i w).setupTick = s.setupTick := rfl
@[simp] theorem State.putSetup_setupStart (i : Nat) (w : Word) : (s.putSetup i w).setupStart = s.setupStart := rfl
@[simp] theorem State.putSetup_latches (i : Nat) (w : Word) : (s.putSetup i w).latches = s.latches := rfl
@[simp] theorem State.putSetup_ignored (i : Nat) (w : Word) : (s.putSetup i w).ignored = s.ignored := rfl
@[simp] theorem State.putSetup_ringCreds (i : Nat) (w : Word) : (s.putSetup i w).ringCreds = s.ringCreds := rfl
@[simp] theorem State.putSetup_sessions (i : Nat) (w : Word) : (s.putSetup i w).sessions = s.sessions := rfl
@[simp] theorem State.putSetup_sessionOut (i : Nat) (w : Word) : (s.putSetup i w).sessionOut = s.sessionOut := rfl
@[simp] theorem State.putSetup_programCred (i : Nat) (w : Word) : (s.putSetup i w).programCred = s.programCred := rfl
@[simp] theorem State.putSetup_identity (i : Nat) (w : Word) : (s.putSetup i w).identity = s.identity := rfl
@[simp] theorem State.putSetup_firmware (i : Nat) (w : Word) : (s.putSetup i w).firmware = s.firmware := rfl
@[simp] theorem State.putSetup_debugOpen (i : Nat) (w : Word) : (s.putSetup i w).debugOpen = s.debugOpen := rfl
@[simp] theorem State.putSetup_clock (i : Nat) (w : Word) : (s.putSetup i w).clock = s.clock := rfl
@[simp] theorem State.putSetup_watchdog (i : Nat) (w : Word) : (s.putSetup i w).watchdog = s.watchdog := rfl
@[simp] theorem State.putSetup_power (i : Nat) (w : Word) : (s.putSetup i w).power = s.power := rfl
@[simp] theorem State.putSetup_hostLink (i : Nat) (w : Word) : (s.putSetup i w).hostLink = s.hostLink := rfl
@[simp] theorem State.putSetup_island (i : Nat) (w : Word) : (s.putSetup i w).island = s.island := rfl
@[simp] theorem State.putSetup_field (i : Nat) (w : Word) : (s.putSetup i w).field = s.field := rfl
@[simp] theorem State.putSetup_modulators (i : Nat) (w : Word) : (s.putSetup i w).modulators = s.modulators := rfl
@[simp] theorem State.putSetup_arch (i : Nat) (w : Word) : (s.putSetup i w).arch = s.arch := rfl
@[simp] theorem State.putSetup_links (i : Nat) (w : Word) : (s.putSetup i w).links = s.links := rfl
@[simp] theorem State.putSetup_stations (i : Nat) (w : Word) : (s.putSetup i w).stations = s.stations := rfl
@[simp] theorem State.putSetup_train (i : Nat) (w : Word) : (s.putSetup i w).train = s.train := rfl
@[simp] theorem State.putSetup_cans (i : Nat) (w : Word) : (s.putSetup i w).cans = s.cans := rfl
@[simp] theorem State.putSetup_serials (i : Nat) (w : Word) : (s.putSetup i w).serials = s.serials := rfl
@[simp] theorem State.putSetup_canRx (i : Nat) (w : Word) : (s.putSetup i w).canRx = s.canRx := rfl
@[simp] theorem State.putSetup_serialRx (i : Nat) (w : Word) : (s.putSetup i w).serialRx = s.serialRx := rfl

/-! ## answer -/

@[simp] theorem State.answer_pending (w : Word) : (s.answer w).pending = s.pending := rfl
@[simp] theorem State.answer_lastRead (w : Word) : (s.answer w).lastRead = [w] := rfl
@[simp] theorem State.answer_fresh (w : Word) : (s.answer w).fresh = s.fresh := rfl
@[simp] theorem State.answer_variant (w : Word) : (s.answer w).variant = s.variant := rfl
@[simp] theorem State.answer_noReserves (w : Word) : (s.answer w).noReserves = s.noReserves := rfl
@[simp] theorem State.answer_md (w : Word) : (s.answer w).md = s.md := rfl
@[simp] theorem State.answer_work (w : Word) : (s.answer w).work = s.work := rfl
@[simp] theorem State.answer_tick (w : Word) : (s.answer w).tick = s.tick := rfl
@[simp] theorem State.answer_perStaged (w : Word) : (s.answer w).perStaged = s.perStaged := rfl
@[simp] theorem State.answer_ovrTile (w : Word) : (s.answer w).ovrTile = s.ovrTile := rfl
@[simp] theorem State.answer_ovrConsec (w : Word) : (s.answer w).ovrConsec = s.ovrConsec := rfl
@[simp] theorem State.answer_ovrValid (w : Word) : (s.answer w).ovrValid = s.ovrValid := rfl
@[simp] theorem State.answer_ovrTask (w : Word) : (s.answer w).ovrTask = s.ovrTask := rfl
@[simp] theorem State.answer_tiles (w : Word) : (s.answer w).tiles = s.tiles := rfl
@[simp] theorem State.answer_dies (w : Word) : (s.answer w).dies = s.dies := rfl
@[simp] theorem State.answer_upsets (w : Word) : (s.answer w).upsets = s.upsets := rfl
@[simp] theorem State.answer_persist (w : Word) : (s.answer w).persist = s.persist := rfl
@[simp] theorem State.answer_online (w : Word) : (s.answer w).online = s.online := rfl
@[simp] theorem State.answer_rings (w : Word) : (s.answer w).rings = s.rings := rfl
@[simp] theorem State.answer_channels (w : Word) : (s.answer w).channels = s.channels := rfl
@[simp] theorem State.answer_refusedSends (w : Word) : (s.answer w).refusedSends = s.refusedSends := rfl
@[simp] theorem State.answer_trackDiscards (w : Word) : (s.answer w).trackDiscards = s.trackDiscards := rfl
@[simp] theorem State.answer_locks (w : Word) : (s.answer w).locks = s.locks := rfl
@[simp] theorem State.answer_msix (w : Word) : (s.answer w).msix = s.msix := rfl
@[simp] theorem State.answer_foremanEvents (w : Word) : (s.answer w).foremanEvents = s.foremanEvents := rfl
@[simp] theorem State.answer_recorder (w : Word) : (s.answer w).recorder = s.recorder := rfl
@[simp] theorem State.answer_pages (w : Word) : (s.answer w).pages = s.pages := rfl
@[simp] theorem State.answer_setup (w : Word) : (s.answer w).setup = s.setup := rfl
@[simp] theorem State.answer_setupTick (w : Word) : (s.answer w).setupTick = s.setupTick := rfl
@[simp] theorem State.answer_setupStart (w : Word) : (s.answer w).setupStart = s.setupStart := rfl
@[simp] theorem State.answer_latches (w : Word) : (s.answer w).latches = s.latches := rfl
@[simp] theorem State.answer_ignored (w : Word) : (s.answer w).ignored = s.ignored := rfl
@[simp] theorem State.answer_ringCreds (w : Word) : (s.answer w).ringCreds = s.ringCreds := rfl
@[simp] theorem State.answer_sessions (w : Word) : (s.answer w).sessions = s.sessions := rfl
@[simp] theorem State.answer_sessionOut (w : Word) : (s.answer w).sessionOut = s.sessionOut := rfl
@[simp] theorem State.answer_programCred (w : Word) : (s.answer w).programCred = s.programCred := rfl
@[simp] theorem State.answer_identity (w : Word) : (s.answer w).identity = s.identity := rfl
@[simp] theorem State.answer_firmware (w : Word) : (s.answer w).firmware = s.firmware := rfl
@[simp] theorem State.answer_debugOpen (w : Word) : (s.answer w).debugOpen = s.debugOpen := rfl
@[simp] theorem State.answer_clock (w : Word) : (s.answer w).clock = s.clock := rfl
@[simp] theorem State.answer_watchdog (w : Word) : (s.answer w).watchdog = s.watchdog := rfl
@[simp] theorem State.answer_power (w : Word) : (s.answer w).power = s.power := rfl
@[simp] theorem State.answer_hostLink (w : Word) : (s.answer w).hostLink = s.hostLink := rfl
@[simp] theorem State.answer_island (w : Word) : (s.answer w).island = s.island := rfl
@[simp] theorem State.answer_field (w : Word) : (s.answer w).field = s.field := rfl
@[simp] theorem State.answer_modulators (w : Word) : (s.answer w).modulators = s.modulators := rfl
@[simp] theorem State.answer_arch (w : Word) : (s.answer w).arch = s.arch := rfl
@[simp] theorem State.answer_links (w : Word) : (s.answer w).links = s.links := rfl
@[simp] theorem State.answer_stations (w : Word) : (s.answer w).stations = s.stations := rfl
@[simp] theorem State.answer_train (w : Word) : (s.answer w).train = s.train := rfl
@[simp] theorem State.answer_cans (w : Word) : (s.answer w).cans = s.cans := rfl
@[simp] theorem State.answer_serials (w : Word) : (s.answer w).serials = s.serials := rfl
@[simp] theorem State.answer_canRx (w : Word) : (s.answer w).canRx = s.canRx := rfl
@[simp] theorem State.answer_serialRx (w : Word) : (s.answer w).serialRx = s.serialRx := rfl

/-! ## setMd -/

@[simp] theorem State.setMd_pending (m : ModeState) : (s.setMd m).pending = s.pending := rfl
@[simp] theorem State.setMd_lastRead (m : ModeState) : (s.setMd m).lastRead = s.lastRead := rfl
@[simp] theorem State.setMd_fresh (m : ModeState) : (s.setMd m).fresh = s.fresh := rfl
@[simp] theorem State.setMd_variant (m : ModeState) : (s.setMd m).variant = s.variant := rfl
@[simp] theorem State.setMd_noReserves (m : ModeState) : (s.setMd m).noReserves = s.noReserves := rfl
@[simp] theorem State.setMd_md (m : ModeState) : (s.setMd m).md = m := rfl
@[simp] theorem State.setMd_work (m : ModeState) : (s.setMd m).work = s.work := rfl
@[simp] theorem State.setMd_tick (m : ModeState) : (s.setMd m).tick = s.tick := rfl
@[simp] theorem State.setMd_perStaged (m : ModeState) : (s.setMd m).perStaged = s.perStaged := rfl
@[simp] theorem State.setMd_ovrTile (m : ModeState) : (s.setMd m).ovrTile = s.ovrTile := rfl
@[simp] theorem State.setMd_ovrConsec (m : ModeState) : (s.setMd m).ovrConsec = s.ovrConsec := rfl
@[simp] theorem State.setMd_ovrValid (m : ModeState) : (s.setMd m).ovrValid = s.ovrValid := rfl
@[simp] theorem State.setMd_ovrTask (m : ModeState) : (s.setMd m).ovrTask = s.ovrTask := rfl
@[simp] theorem State.setMd_tiles (m : ModeState) : (s.setMd m).tiles = s.tiles := rfl
@[simp] theorem State.setMd_dies (m : ModeState) : (s.setMd m).dies = s.dies := rfl
@[simp] theorem State.setMd_upsets (m : ModeState) : (s.setMd m).upsets = s.upsets := rfl
@[simp] theorem State.setMd_persist (m : ModeState) : (s.setMd m).persist = s.persist := rfl
@[simp] theorem State.setMd_online (m : ModeState) : (s.setMd m).online = s.online := rfl
@[simp] theorem State.setMd_rings (m : ModeState) : (s.setMd m).rings = s.rings := rfl
@[simp] theorem State.setMd_channels (m : ModeState) : (s.setMd m).channels = s.channels := rfl
@[simp] theorem State.setMd_refusedSends (m : ModeState) : (s.setMd m).refusedSends = s.refusedSends := rfl
@[simp] theorem State.setMd_trackDiscards (m : ModeState) : (s.setMd m).trackDiscards = s.trackDiscards := rfl
@[simp] theorem State.setMd_locks (m : ModeState) : (s.setMd m).locks = s.locks := rfl
@[simp] theorem State.setMd_msix (m : ModeState) : (s.setMd m).msix = s.msix := rfl
@[simp] theorem State.setMd_foremanEvents (m : ModeState) : (s.setMd m).foremanEvents = s.foremanEvents := rfl
@[simp] theorem State.setMd_recorder (m : ModeState) : (s.setMd m).recorder = s.recorder := rfl
@[simp] theorem State.setMd_pages (m : ModeState) : (s.setMd m).pages = s.pages := rfl
@[simp] theorem State.setMd_setup (m : ModeState) : (s.setMd m).setup = s.setup := rfl
@[simp] theorem State.setMd_setupTick (m : ModeState) : (s.setMd m).setupTick = s.setupTick := rfl
@[simp] theorem State.setMd_setupStart (m : ModeState) : (s.setMd m).setupStart = s.setupStart := rfl
@[simp] theorem State.setMd_latches (m : ModeState) : (s.setMd m).latches = s.latches := rfl
@[simp] theorem State.setMd_ignored (m : ModeState) : (s.setMd m).ignored = s.ignored := rfl
@[simp] theorem State.setMd_ringCreds (m : ModeState) : (s.setMd m).ringCreds = s.ringCreds := rfl
@[simp] theorem State.setMd_sessions (m : ModeState) : (s.setMd m).sessions = s.sessions := rfl
@[simp] theorem State.setMd_sessionOut (m : ModeState) : (s.setMd m).sessionOut = s.sessionOut := rfl
@[simp] theorem State.setMd_programCred (m : ModeState) : (s.setMd m).programCred = s.programCred := rfl
@[simp] theorem State.setMd_identity (m : ModeState) : (s.setMd m).identity = s.identity := rfl
@[simp] theorem State.setMd_firmware (m : ModeState) : (s.setMd m).firmware = s.firmware := rfl
@[simp] theorem State.setMd_debugOpen (m : ModeState) : (s.setMd m).debugOpen = s.debugOpen := rfl
@[simp] theorem State.setMd_clock (m : ModeState) : (s.setMd m).clock = s.clock := rfl
@[simp] theorem State.setMd_watchdog (m : ModeState) : (s.setMd m).watchdog = s.watchdog := rfl
@[simp] theorem State.setMd_power (m : ModeState) : (s.setMd m).power = s.power := rfl
@[simp] theorem State.setMd_hostLink (m : ModeState) : (s.setMd m).hostLink = s.hostLink := rfl
@[simp] theorem State.setMd_island (m : ModeState) : (s.setMd m).island = s.island := rfl
@[simp] theorem State.setMd_field (m : ModeState) : (s.setMd m).field = s.field := rfl
@[simp] theorem State.setMd_modulators (m : ModeState) : (s.setMd m).modulators = s.modulators := rfl
@[simp] theorem State.setMd_arch (m : ModeState) : (s.setMd m).arch = s.arch := rfl
@[simp] theorem State.setMd_links (m : ModeState) : (s.setMd m).links = s.links := rfl
@[simp] theorem State.setMd_stations (m : ModeState) : (s.setMd m).stations = s.stations := rfl
@[simp] theorem State.setMd_train (m : ModeState) : (s.setMd m).train = s.train := rfl
@[simp] theorem State.setMd_cans (m : ModeState) : (s.setMd m).cans = s.cans := rfl
@[simp] theorem State.setMd_serials (m : ModeState) : (s.setMd m).serials = s.serials := rfl
@[simp] theorem State.setMd_canRx (m : ModeState) : (s.setMd m).canRx = s.canRx := rfl
@[simp] theorem State.setMd_serialRx (m : ModeState) : (s.setMd m).serialRx = s.serialRx := rfl

/-! ## setMem -/

@[simp] theorem State.setMem_pending (t : Nat) (x : TileMem) : (s.setMem t x).pending = s.pending := rfl
@[simp] theorem State.setMem_lastRead (t : Nat) (x : TileMem) : (s.setMem t x).lastRead = s.lastRead := rfl
@[simp] theorem State.setMem_fresh (t : Nat) (x : TileMem) : (s.setMem t x).fresh = s.fresh := rfl
@[simp] theorem State.setMem_variant (t : Nat) (x : TileMem) : (s.setMem t x).variant = s.variant := rfl
@[simp] theorem State.setMem_noReserves (t : Nat) (x : TileMem) : (s.setMem t x).noReserves = s.noReserves := rfl
@[simp] theorem State.setMem_md (t : Nat) (x : TileMem) : (s.setMem t x).md = s.md := rfl
@[simp] theorem State.setMem_work (t : Nat) (x : TileMem) : (s.setMem t x).work = { s.work with mem := Tbl.set {} s.work.mem t x } := rfl
@[simp] theorem State.setMem_tick (t : Nat) (x : TileMem) : (s.setMem t x).tick = s.tick := rfl
@[simp] theorem State.setMem_perStaged (t : Nat) (x : TileMem) : (s.setMem t x).perStaged = s.perStaged := rfl
@[simp] theorem State.setMem_ovrTile (t : Nat) (x : TileMem) : (s.setMem t x).ovrTile = s.ovrTile := rfl
@[simp] theorem State.setMem_ovrConsec (t : Nat) (x : TileMem) : (s.setMem t x).ovrConsec = s.ovrConsec := rfl
@[simp] theorem State.setMem_ovrValid (t : Nat) (x : TileMem) : (s.setMem t x).ovrValid = s.ovrValid := rfl
@[simp] theorem State.setMem_ovrTask (t : Nat) (x : TileMem) : (s.setMem t x).ovrTask = s.ovrTask := rfl
@[simp] theorem State.setMem_tiles (t : Nat) (x : TileMem) : (s.setMem t x).tiles = s.tiles := rfl
@[simp] theorem State.setMem_dies (t : Nat) (x : TileMem) : (s.setMem t x).dies = s.dies := rfl
@[simp] theorem State.setMem_upsets (t : Nat) (x : TileMem) : (s.setMem t x).upsets = s.upsets := rfl
@[simp] theorem State.setMem_persist (t : Nat) (x : TileMem) : (s.setMem t x).persist = s.persist := rfl
@[simp] theorem State.setMem_online (t : Nat) (x : TileMem) : (s.setMem t x).online = s.online := rfl
@[simp] theorem State.setMem_rings (t : Nat) (x : TileMem) : (s.setMem t x).rings = s.rings := rfl
@[simp] theorem State.setMem_channels (t : Nat) (x : TileMem) : (s.setMem t x).channels = s.channels := rfl
@[simp] theorem State.setMem_refusedSends (t : Nat) (x : TileMem) : (s.setMem t x).refusedSends = s.refusedSends := rfl
@[simp] theorem State.setMem_trackDiscards (t : Nat) (x : TileMem) : (s.setMem t x).trackDiscards = s.trackDiscards := rfl
@[simp] theorem State.setMem_locks (t : Nat) (x : TileMem) : (s.setMem t x).locks = s.locks := rfl
@[simp] theorem State.setMem_msix (t : Nat) (x : TileMem) : (s.setMem t x).msix = s.msix := rfl
@[simp] theorem State.setMem_foremanEvents (t : Nat) (x : TileMem) : (s.setMem t x).foremanEvents = s.foremanEvents := rfl
@[simp] theorem State.setMem_recorder (t : Nat) (x : TileMem) : (s.setMem t x).recorder = s.recorder := rfl
@[simp] theorem State.setMem_pages (t : Nat) (x : TileMem) : (s.setMem t x).pages = s.pages := rfl
@[simp] theorem State.setMem_setup (t : Nat) (x : TileMem) : (s.setMem t x).setup = s.setup := rfl
@[simp] theorem State.setMem_setupTick (t : Nat) (x : TileMem) : (s.setMem t x).setupTick = s.setupTick := rfl
@[simp] theorem State.setMem_setupStart (t : Nat) (x : TileMem) : (s.setMem t x).setupStart = s.setupStart := rfl
@[simp] theorem State.setMem_latches (t : Nat) (x : TileMem) : (s.setMem t x).latches = s.latches := rfl
@[simp] theorem State.setMem_ignored (t : Nat) (x : TileMem) : (s.setMem t x).ignored = s.ignored := rfl
@[simp] theorem State.setMem_ringCreds (t : Nat) (x : TileMem) : (s.setMem t x).ringCreds = s.ringCreds := rfl
@[simp] theorem State.setMem_sessions (t : Nat) (x : TileMem) : (s.setMem t x).sessions = s.sessions := rfl
@[simp] theorem State.setMem_sessionOut (t : Nat) (x : TileMem) : (s.setMem t x).sessionOut = s.sessionOut := rfl
@[simp] theorem State.setMem_programCred (t : Nat) (x : TileMem) : (s.setMem t x).programCred = s.programCred := rfl
@[simp] theorem State.setMem_identity (t : Nat) (x : TileMem) : (s.setMem t x).identity = s.identity := rfl
@[simp] theorem State.setMem_firmware (t : Nat) (x : TileMem) : (s.setMem t x).firmware = s.firmware := rfl
@[simp] theorem State.setMem_debugOpen (t : Nat) (x : TileMem) : (s.setMem t x).debugOpen = s.debugOpen := rfl
@[simp] theorem State.setMem_clock (t : Nat) (x : TileMem) : (s.setMem t x).clock = s.clock := rfl
@[simp] theorem State.setMem_watchdog (t : Nat) (x : TileMem) : (s.setMem t x).watchdog = s.watchdog := rfl
@[simp] theorem State.setMem_power (t : Nat) (x : TileMem) : (s.setMem t x).power = s.power := rfl
@[simp] theorem State.setMem_hostLink (t : Nat) (x : TileMem) : (s.setMem t x).hostLink = s.hostLink := rfl
@[simp] theorem State.setMem_island (t : Nat) (x : TileMem) : (s.setMem t x).island = s.island := rfl
@[simp] theorem State.setMem_field (t : Nat) (x : TileMem) : (s.setMem t x).field = s.field := rfl
@[simp] theorem State.setMem_modulators (t : Nat) (x : TileMem) : (s.setMem t x).modulators = s.modulators := rfl
@[simp] theorem State.setMem_arch (t : Nat) (x : TileMem) : (s.setMem t x).arch = s.arch := rfl
@[simp] theorem State.setMem_links (t : Nat) (x : TileMem) : (s.setMem t x).links = s.links := rfl
@[simp] theorem State.setMem_stations (t : Nat) (x : TileMem) : (s.setMem t x).stations = s.stations := rfl
@[simp] theorem State.setMem_train (t : Nat) (x : TileMem) : (s.setMem t x).train = s.train := rfl
@[simp] theorem State.setMem_cans (t : Nat) (x : TileMem) : (s.setMem t x).cans = s.cans := rfl
@[simp] theorem State.setMem_serials (t : Nat) (x : TileMem) : (s.setMem t x).serials = s.serials := rfl
@[simp] theorem State.setMem_canRx (t : Nat) (x : TileMem) : (s.setMem t x).canRx = s.canRx := rfl
@[simp] theorem State.setMem_serialRx (t : Nat) (x : TileMem) : (s.setMem t x).serialRx = s.serialRx := rfl

/-! ## setMortar -/

@[simp] theorem State.setMortar_pending (m : Mortar) : (s.setMortar m).pending = s.pending := rfl
@[simp] theorem State.setMortar_lastRead (m : Mortar) : (s.setMortar m).lastRead = s.lastRead := rfl
@[simp] theorem State.setMortar_fresh (m : Mortar) : (s.setMortar m).fresh = s.fresh := rfl
@[simp] theorem State.setMortar_variant (m : Mortar) : (s.setMortar m).variant = s.variant := rfl
@[simp] theorem State.setMortar_noReserves (m : Mortar) : (s.setMortar m).noReserves = s.noReserves := rfl
@[simp] theorem State.setMortar_md (m : Mortar) : (s.setMortar m).md = s.md := rfl
@[simp] theorem State.setMortar_work (m : Mortar) : (s.setMortar m).work = { s.work with mortar := m } := rfl
@[simp] theorem State.setMortar_tick (m : Mortar) : (s.setMortar m).tick = s.tick := rfl
@[simp] theorem State.setMortar_perStaged (m : Mortar) : (s.setMortar m).perStaged = s.perStaged := rfl
@[simp] theorem State.setMortar_ovrTile (m : Mortar) : (s.setMortar m).ovrTile = s.ovrTile := rfl
@[simp] theorem State.setMortar_ovrConsec (m : Mortar) : (s.setMortar m).ovrConsec = s.ovrConsec := rfl
@[simp] theorem State.setMortar_ovrValid (m : Mortar) : (s.setMortar m).ovrValid = s.ovrValid := rfl
@[simp] theorem State.setMortar_ovrTask (m : Mortar) : (s.setMortar m).ovrTask = s.ovrTask := rfl
@[simp] theorem State.setMortar_tiles (m : Mortar) : (s.setMortar m).tiles = s.tiles := rfl
@[simp] theorem State.setMortar_dies (m : Mortar) : (s.setMortar m).dies = s.dies := rfl
@[simp] theorem State.setMortar_upsets (m : Mortar) : (s.setMortar m).upsets = s.upsets := rfl
@[simp] theorem State.setMortar_persist (m : Mortar) : (s.setMortar m).persist = s.persist := rfl
@[simp] theorem State.setMortar_online (m : Mortar) : (s.setMortar m).online = s.online := rfl
@[simp] theorem State.setMortar_rings (m : Mortar) : (s.setMortar m).rings = s.rings := rfl
@[simp] theorem State.setMortar_channels (m : Mortar) : (s.setMortar m).channels = s.channels := rfl
@[simp] theorem State.setMortar_refusedSends (m : Mortar) : (s.setMortar m).refusedSends = s.refusedSends := rfl
@[simp] theorem State.setMortar_trackDiscards (m : Mortar) : (s.setMortar m).trackDiscards = s.trackDiscards := rfl
@[simp] theorem State.setMortar_locks (m : Mortar) : (s.setMortar m).locks = s.locks := rfl
@[simp] theorem State.setMortar_msix (m : Mortar) : (s.setMortar m).msix = s.msix := rfl
@[simp] theorem State.setMortar_foremanEvents (m : Mortar) : (s.setMortar m).foremanEvents = s.foremanEvents := rfl
@[simp] theorem State.setMortar_recorder (m : Mortar) : (s.setMortar m).recorder = s.recorder := rfl
@[simp] theorem State.setMortar_pages (m : Mortar) : (s.setMortar m).pages = s.pages := rfl
@[simp] theorem State.setMortar_setup (m : Mortar) : (s.setMortar m).setup = s.setup := rfl
@[simp] theorem State.setMortar_setupTick (m : Mortar) : (s.setMortar m).setupTick = s.setupTick := rfl
@[simp] theorem State.setMortar_setupStart (m : Mortar) : (s.setMortar m).setupStart = s.setupStart := rfl
@[simp] theorem State.setMortar_latches (m : Mortar) : (s.setMortar m).latches = s.latches := rfl
@[simp] theorem State.setMortar_ignored (m : Mortar) : (s.setMortar m).ignored = s.ignored := rfl
@[simp] theorem State.setMortar_ringCreds (m : Mortar) : (s.setMortar m).ringCreds = s.ringCreds := rfl
@[simp] theorem State.setMortar_sessions (m : Mortar) : (s.setMortar m).sessions = s.sessions := rfl
@[simp] theorem State.setMortar_sessionOut (m : Mortar) : (s.setMortar m).sessionOut = s.sessionOut := rfl
@[simp] theorem State.setMortar_programCred (m : Mortar) : (s.setMortar m).programCred = s.programCred := rfl
@[simp] theorem State.setMortar_identity (m : Mortar) : (s.setMortar m).identity = s.identity := rfl
@[simp] theorem State.setMortar_firmware (m : Mortar) : (s.setMortar m).firmware = s.firmware := rfl
@[simp] theorem State.setMortar_debugOpen (m : Mortar) : (s.setMortar m).debugOpen = s.debugOpen := rfl
@[simp] theorem State.setMortar_clock (m : Mortar) : (s.setMortar m).clock = s.clock := rfl
@[simp] theorem State.setMortar_watchdog (m : Mortar) : (s.setMortar m).watchdog = s.watchdog := rfl
@[simp] theorem State.setMortar_power (m : Mortar) : (s.setMortar m).power = s.power := rfl
@[simp] theorem State.setMortar_hostLink (m : Mortar) : (s.setMortar m).hostLink = s.hostLink := rfl
@[simp] theorem State.setMortar_island (m : Mortar) : (s.setMortar m).island = s.island := rfl
@[simp] theorem State.setMortar_field (m : Mortar) : (s.setMortar m).field = s.field := rfl
@[simp] theorem State.setMortar_modulators (m : Mortar) : (s.setMortar m).modulators = s.modulators := rfl
@[simp] theorem State.setMortar_arch (m : Mortar) : (s.setMortar m).arch = s.arch := rfl
@[simp] theorem State.setMortar_links (m : Mortar) : (s.setMortar m).links = s.links := rfl
@[simp] theorem State.setMortar_stations (m : Mortar) : (s.setMortar m).stations = s.stations := rfl
@[simp] theorem State.setMortar_train (m : Mortar) : (s.setMortar m).train = s.train := rfl
@[simp] theorem State.setMortar_cans (m : Mortar) : (s.setMortar m).cans = s.cans := rfl
@[simp] theorem State.setMortar_serials (m : Mortar) : (s.setMortar m).serials = s.serials := rfl
@[simp] theorem State.setMortar_canRx (m : Mortar) : (s.setMortar m).canRx = s.canRx := rfl
@[simp] theorem State.setMortar_serialRx (m : Mortar) : (s.setMortar m).serialRx = s.serialRx := rfl

/-! ## dirty -/

@[simp] theorem State.dirty_pending (l : Nat) : (s.dirty l).pending = s.pending := rfl
@[simp] theorem State.dirty_lastRead (l : Nat) : (s.dirty l).lastRead = s.lastRead := rfl
@[simp] theorem State.dirty_fresh (l : Nat) : (s.dirty l).fresh = s.fresh := rfl
@[simp] theorem State.dirty_variant (l : Nat) : (s.dirty l).variant = s.variant := rfl
@[simp] theorem State.dirty_noReserves (l : Nat) : (s.dirty l).noReserves = s.noReserves := rfl
@[simp] theorem State.dirty_md (l : Nat) : (s.dirty l).md = s.md := rfl
@[simp] theorem State.dirty_work (l : Nat) : (s.dirty l).work = s.work := rfl
@[simp] theorem State.dirty_tick (l : Nat) : (s.dirty l).tick = s.tick := rfl
@[simp] theorem State.dirty_perStaged (l : Nat) : (s.dirty l).perStaged = s.perStaged := rfl
@[simp] theorem State.dirty_ovrTile (l : Nat) : (s.dirty l).ovrTile = s.ovrTile := rfl
@[simp] theorem State.dirty_ovrConsec (l : Nat) : (s.dirty l).ovrConsec = s.ovrConsec := rfl
@[simp] theorem State.dirty_ovrValid (l : Nat) : (s.dirty l).ovrValid = s.ovrValid := rfl
@[simp] theorem State.dirty_ovrTask (l : Nat) : (s.dirty l).ovrTask = s.ovrTask := rfl
@[simp] theorem State.dirty_tiles (l : Nat) : (s.dirty l).tiles = s.tiles := rfl
@[simp] theorem State.dirty_dies (l : Nat) : (s.dirty l).dies = s.dies := rfl
@[simp] theorem State.dirty_upsets (l : Nat) : (s.dirty l).upsets = s.upsets := rfl
@[simp] theorem State.dirty_persist (l : Nat) : (s.dirty l).persist = { s.persist with dirty := Tbl.set false s.persist.dirty l true, copyDirty := Tbl.set false s.persist.copyDirty l true } := rfl
@[simp] theorem State.dirty_online (l : Nat) : (s.dirty l).online = s.online := rfl
@[simp] theorem State.dirty_rings (l : Nat) : (s.dirty l).rings = s.rings := rfl
@[simp] theorem State.dirty_channels (l : Nat) : (s.dirty l).channels = s.channels := rfl
@[simp] theorem State.dirty_refusedSends (l : Nat) : (s.dirty l).refusedSends = s.refusedSends := rfl
@[simp] theorem State.dirty_trackDiscards (l : Nat) : (s.dirty l).trackDiscards = s.trackDiscards := rfl
@[simp] theorem State.dirty_locks (l : Nat) : (s.dirty l).locks = s.locks := rfl
@[simp] theorem State.dirty_msix (l : Nat) : (s.dirty l).msix = s.msix := rfl
@[simp] theorem State.dirty_foremanEvents (l : Nat) : (s.dirty l).foremanEvents = s.foremanEvents := rfl
@[simp] theorem State.dirty_recorder (l : Nat) : (s.dirty l).recorder = s.recorder := rfl
@[simp] theorem State.dirty_pages (l : Nat) : (s.dirty l).pages = s.pages := rfl
@[simp] theorem State.dirty_setup (l : Nat) : (s.dirty l).setup = s.setup := rfl
@[simp] theorem State.dirty_setupTick (l : Nat) : (s.dirty l).setupTick = s.setupTick := rfl
@[simp] theorem State.dirty_setupStart (l : Nat) : (s.dirty l).setupStart = s.setupStart := rfl
@[simp] theorem State.dirty_latches (l : Nat) : (s.dirty l).latches = s.latches := rfl
@[simp] theorem State.dirty_ignored (l : Nat) : (s.dirty l).ignored = s.ignored := rfl
@[simp] theorem State.dirty_ringCreds (l : Nat) : (s.dirty l).ringCreds = s.ringCreds := rfl
@[simp] theorem State.dirty_sessions (l : Nat) : (s.dirty l).sessions = s.sessions := rfl
@[simp] theorem State.dirty_sessionOut (l : Nat) : (s.dirty l).sessionOut = s.sessionOut := rfl
@[simp] theorem State.dirty_programCred (l : Nat) : (s.dirty l).programCred = s.programCred := rfl
@[simp] theorem State.dirty_identity (l : Nat) : (s.dirty l).identity = s.identity := rfl
@[simp] theorem State.dirty_firmware (l : Nat) : (s.dirty l).firmware = s.firmware := rfl
@[simp] theorem State.dirty_debugOpen (l : Nat) : (s.dirty l).debugOpen = s.debugOpen := rfl
@[simp] theorem State.dirty_clock (l : Nat) : (s.dirty l).clock = s.clock := rfl
@[simp] theorem State.dirty_watchdog (l : Nat) : (s.dirty l).watchdog = s.watchdog := rfl
@[simp] theorem State.dirty_power (l : Nat) : (s.dirty l).power = s.power := rfl
@[simp] theorem State.dirty_hostLink (l : Nat) : (s.dirty l).hostLink = s.hostLink := rfl
@[simp] theorem State.dirty_island (l : Nat) : (s.dirty l).island = s.island := rfl
@[simp] theorem State.dirty_field (l : Nat) : (s.dirty l).field = s.field := rfl
@[simp] theorem State.dirty_modulators (l : Nat) : (s.dirty l).modulators = s.modulators := rfl
@[simp] theorem State.dirty_arch (l : Nat) : (s.dirty l).arch = s.arch := rfl
@[simp] theorem State.dirty_links (l : Nat) : (s.dirty l).links = s.links := rfl
@[simp] theorem State.dirty_stations (l : Nat) : (s.dirty l).stations = s.stations := rfl
@[simp] theorem State.dirty_train (l : Nat) : (s.dirty l).train = s.train := rfl
@[simp] theorem State.dirty_cans (l : Nat) : (s.dirty l).cans = s.cans := rfl
@[simp] theorem State.dirty_serials (l : Nat) : (s.dirty l).serials = s.serials := rfl
@[simp] theorem State.dirty_canRx (l : Nat) : (s.dirty l).canRx = s.canRx := rfl
@[simp] theorem State.dirty_serialRx (l : Nat) : (s.dirty l).serialRx = s.serialRx := rfl

/-! ## Reads of a unit after a write -/

@[simp] theorem State.tile_setTile (i : Nat) (x : Tile) : (s.setTile i x).tile i = x := Tbl.get_set_self ({} : Tile) s.tiles i x
theorem State.tile_setTile_ne {i j : Nat} (x : Tile) (h : j ≠ i) : (s.setTile i x).tile j = s.tile j :=
  Tbl.get_set_ne ({} : Tile) s.tiles x h
@[simp] theorem State.die_setDie (i : Nat) (x : Die) : (s.setDie i x).die i = x := Tbl.get_set_self ({} : Die) s.dies i x
theorem State.die_setDie_ne {i j : Nat} (x : Die) (h : j ≠ i) : (s.setDie i x).die j = s.die j :=
  Tbl.get_set_ne ({} : Die) s.dies x h
@[simp] theorem State.ring_setRing (i : Nat) (x : Ring) : (s.setRing i x).ring i = x := Tbl.get_set_self ({} : Ring) s.rings i x
theorem State.ring_setRing_ne {i j : Nat} (x : Ring) (h : j ≠ i) : (s.setRing i x).ring j = s.ring j :=
  Tbl.get_set_ne ({} : Ring) s.rings x h
@[simp] theorem State.channel_setChannel (i : Nat) (x : Channel) : (s.setChannel i x).channel i = x := Tbl.get_set_self ({} : Channel) s.channels i x
theorem State.channel_setChannel_ne {i j : Nat} (x : Channel) (h : j ≠ i) : (s.setChannel i x).channel j = s.channel j :=
  Tbl.get_set_ne ({} : Channel) s.channels x h
@[simp] theorem State.lock_setLock (i : Nat) (x : Lock) : (s.setLock i x).lock i = x := Tbl.get_set_self ({} : Lock) s.locks i x
theorem State.lock_setLock_ne {i j : Nat} (x : Lock) (h : j ≠ i) : (s.setLock i x).lock j = s.lock j :=
  Tbl.get_set_ne ({} : Lock) s.locks x h
@[simp] theorem State.link_setLink (i : Nat) (x : Link) : (s.setLink i x).link i = x := Tbl.get_set_self ({} : Link) s.links i x
theorem State.link_setLink_ne {i j : Nat} (x : Link) (h : j ≠ i) : (s.setLink i x).link j = s.link j :=
  Tbl.get_set_ne ({} : Link) s.links x h
@[simp] theorem State.station_setStation (i : Nat) (x : Station) : (s.setStation i x).station i = x := Tbl.get_set_self ({} : Station) s.stations i x
theorem State.station_setStation_ne {i j : Nat} (x : Station) (h : j ≠ i) : (s.setStation i x).station j = s.station j :=
  Tbl.get_set_ne ({} : Station) s.stations x h
@[simp] theorem State.can_setCan (i : Nat) (x : Can) : (s.setCan i x).can i = x := Tbl.get_set_self ({} : Can) s.cans i x
theorem State.can_setCan_ne {i j : Nat} (x : Can) (h : j ≠ i) : (s.setCan i x).can j = s.can j :=
  Tbl.get_set_ne ({} : Can) s.cans x h
@[simp] theorem State.serial_setSerial (i : Nat) (x : Serial) : (s.setSerial i x).serial i = x := Tbl.get_set_self ({} : Serial) s.serials i x
theorem State.serial_setSerial_ne {i j : Nat} (x : Serial) (h : j ≠ i) : (s.setSerial i x).serial j = s.serial j :=
  Tbl.get_set_ne ({} : Serial) s.serials x h
@[simp] theorem State.mem_setMem (t : Nat) (x : TileMem) : (s.setMem t x).mem t = x := Tbl.get_set_self ({} : TileMem) s.work.mem t x
theorem State.mem_setMem_ne {t u : Nat} (x : TileMem) (h : u ≠ t) : (s.setMem t x).mem u = s.mem u :=
  Tbl.get_set_ne ({} : TileMem) s.work.mem x h
@[simp] theorem State.setupOr_putSetup (i : Nat) (w d : Word) : (s.putSetup i w).setupOr i d = w := by
  simp [State.setupOr, State.setupAt]

end Sys2Proof.Machine
end

