-- ==== Sys2Proof/Laws/Ops.lean ====
section
/-!
SUPPORT. What the shared operations can do, said once for each: the recorder, doorbells, completions, descriptors taken, and the
memories, whose canonical form every write keeps.
-/

namespace Sys2Proof.Machine

/-! ## The form of each operation: the fields it may write -/

/-- An event goes to the recorder's queue and nowhere else (R411). -/
theorem State.record_form (s : State) (e : Event) : s.record e = { s with recorder := (s.record e).recorder } := by
  unfold State.record; split <;> rfl

/-- While the recorder is shut, an event leaves nothing (R23). -/
theorem State.record_shut {s : State} (h : s.recorder.open_ = false) (e : Event) : s.record e = s := by
  simp [State.record, h]

/-- A doorbell raises a vector of the host link or an event of the foreman (R267, R269). -/
theorem State.doorbell_form (s : State) (m v : Nat) :
    s.doorbell m v = { s with msix := (s.doorbell m v).msix, foremanEvents := (s.doorbell m v).foremanEvents } := by
  unfold State.doorbell; split
  · rfl
  · split <;> rfl

/-- A completion posted to a ring writes the ring and rings its owner (R268, R274, R277). -/
theorem State.postCompletion_form (s : State) (r : Nat) (c : Completion) :
    s.postCompletion r c =
      { s with rings         := (s.postCompletion r c).rings
               msix          := (s.postCompletion r c).msix
               foremanEvents := (s.postCompletion r c).foremanEvents } := by
  have h : ∃ a b f, s.postCompletion r c = { s with rings := a, msix := b, foremanEvents := f } := by
    unfold State.postCompletion
    dsimp only
    split
    · exact ⟨_, _, _, rfl⟩
    · rw [State.doorbell_form]; exact ⟨_, _, _, rfl⟩
  obtain ⟨a, b, f, h⟩ := h
  rw [h]

/-- A descriptor completed writes its ring, the owner's doorbell or the session's answers, and the recorder (R279, R280, R469). -/
theorem State.complete_form (s : State) (k : Ticket) (rep : Reply) :
    s.complete k rep =
      { s with rings         := (s.complete k rep).rings
               msix          := (s.complete k rep).msix
               foremanEvents := (s.complete k rep).foremanEvents
               sessionOut    := (s.complete k rep).sessionOut
               recorder      := (s.complete k rep).recorder } := by
  have h : ∃ a b f o e, s.complete k rep =
      { s with rings := a, msix := b, foremanEvents := f, sessionOut := o, recorder := e } := by
    unfold State.complete
    dsimp only
    split
    · exact ⟨_, _, _, _, _, rfl⟩
    · cases k.origin with
      | ring slot => dsimp only; rw [State.postCompletion_form]; exact ⟨_, _, _, _, _, rfl⟩
      | session id => exact ⟨_, _, _, _, _, rfl⟩
      | tile t c =>
        dsimp only
        split
        · exact ⟨_, _, _, _, _, rfl⟩
        · rw [State.record_form]; exact ⟨_, _, _, _, _, rfl⟩
  obtain ⟨a, b, f, o, e, h⟩ := h
  rw [h]

/-- A ticket that is not in flight receives no completion (R279). -/
theorem State.complete_of_not_mem {s : State} {k : Ticket} (h : k ∉ (s.ring k.ring).flight) (rep : Reply) :
    s.complete k rep = s := by
  simp [State.complete, h]

/-- Completing several descriptors writes what completing one writes. -/
theorem State.completeAll_form (s : State) (rep : Reply) (l : List Ticket) :
    s.completeAll rep l =
      { s with rings         := (s.completeAll rep l).rings
               msix          := (s.completeAll rep l).msix
               foremanEvents := (s.completeAll rep l).foremanEvents
               sessionOut    := (s.completeAll rep l).sessionOut
               recorder      := (s.completeAll rep l).recorder } := by
  have h : ∃ a b f o e, s.completeAll rep l =
      { s with rings := a, msix := b, foremanEvents := f, sessionOut := o, recorder := e } := by
    induction l generalizing s with
    | nil => exact ⟨_, _, _, _, _, rfl⟩
    | cons k ks ih =>
      obtain ⟨a, b, f, o, e, h⟩ := ih (s.complete k rep)
      rw [State.completeAll, h, State.complete_form]; exact ⟨_, _, _, _, _, rfl⟩
  obtain ⟨a, b, f, o, e, h⟩ := h
  rw [h]

/-- An arrival joins the order of arrival alone (R248). -/
theorem State.arriveMail_form (s : State) (d x : Nat) : s.arriveMail d x = { s with arch := (s.arriveMail d x).arch } := by
  unfold State.arriveMail State.arrive; split <;> rfl

/-- An ignored write is counted, and nothing else happens (R505). -/
theorem State.countIgnored_form (s : State) (m : Nat) :
    s.countIgnored m = { s with ignored := (s.countIgnored m).ignored } := by
  unfold State.countIgnored; split <;> rfl

/-! ## record: every other field stays -/

@[simp] theorem State.record_pending (s : State) (e : Event) : (s.record e).pending = s.pending := by
  rw [State.record_form s e]
@[simp] theorem State.record_lastRead (s : State) (e : Event) : (s.record e).lastRead = s.lastRead := by
  rw [State.record_form s e]
@[simp] theorem State.record_fresh (s : State) (e : Event) : (s.record e).fresh = s.fresh := by
  rw [State.record_form s e]
@[simp] theorem State.record_variant (s : State) (e : Event) : (s.record e).variant = s.variant := by
  rw [State.record_form s e]
@[simp] theorem State.record_noReserves (s : State) (e : Event) : (s.record e).noReserves = s.noReserves := by
  rw [State.record_form s e]
@[simp] theorem State.record_md (s : State) (e : Event) : (s.record e).md = s.md := by
  rw [State.record_form s e]
@[simp] theorem State.record_work (s : State) (e : Event) : (s.record e).work = s.work := by
  rw [State.record_form s e]
@[simp] theorem State.record_tick (s : State) (e : Event) : (s.record e).tick = s.tick := by
  rw [State.record_form s e]
@[simp] theorem State.record_perStaged (s : State) (e : Event) : (s.record e).perStaged = s.perStaged := by
  rw [State.record_form s e]
@[simp] theorem State.record_ovrTile (s : State) (e : Event) : (s.record e).ovrTile = s.ovrTile := by
  rw [State.record_form s e]
@[simp] theorem State.record_ovrConsec (s : State) (e : Event) : (s.record e).ovrConsec = s.ovrConsec := by
  rw [State.record_form s e]
@[simp] theorem State.record_ovrValid (s : State) (e : Event) : (s.record e).ovrValid = s.ovrValid := by
  rw [State.record_form s e]
@[simp] theorem State.record_ovrTask (s : State) (e : Event) : (s.record e).ovrTask = s.ovrTask := by
  rw [State.record_form s e]
@[simp] theorem State.record_tiles (s : State) (e : Event) : (s.record e).tiles = s.tiles := by
  rw [State.record_form s e]
@[simp] theorem State.record_dies (s : State) (e : Event) : (s.record e).dies = s.dies := by
  rw [State.record_form s e]
@[simp] theorem State.record_persist (s : State) (e : Event) : (s.record e).persist = s.persist := by
  rw [State.record_form s e]
@[simp] theorem State.record_online (s : State) (e : Event) : (s.record e).online = s.online := by
  rw [State.record_form s e]
@[simp] theorem State.record_rings (s : State) (e : Event) : (s.record e).rings = s.rings := by
  rw [State.record_form s e]
@[simp] theorem State.record_channels (s : State) (e : Event) : (s.record e).channels = s.channels := by
  rw [State.record_form s e]
@[simp] theorem State.record_refusedSends (s : State) (e : Event) : (s.record e).refusedSends = s.refusedSends := by
  rw [State.record_form s e]
@[simp] theorem State.record_trackDiscards (s : State) (e : Event) : (s.record e).trackDiscards = s.trackDiscards := by
  rw [State.record_form s e]
@[simp] theorem State.record_locks (s : State) (e : Event) : (s.record e).locks = s.locks := by
  rw [State.record_form s e]
@[simp] theorem State.record_msix (s : State) (e : Event) : (s.record e).msix = s.msix := by
  rw [State.record_form s e]
@[simp] theorem State.record_foremanEvents (s : State) (e : Event) : (s.record e).foremanEvents = s.foremanEvents := by
  rw [State.record_form s e]
@[simp] theorem State.record_pages (s : State) (e : Event) : (s.record e).pages = s.pages := by
  rw [State.record_form s e]
@[simp] theorem State.record_setup (s : State) (e : Event) : (s.record e).setup = s.setup := by
  rw [State.record_form s e]
@[simp] theorem State.record_setupTick (s : State) (e : Event) : (s.record e).setupTick = s.setupTick := by
  rw [State.record_form s e]
@[simp] theorem State.record_setupStart (s : State) (e : Event) : (s.record e).setupStart = s.setupStart := by
  rw [State.record_form s e]
@[simp] theorem State.record_latches (s : State) (e : Event) : (s.record e).latches = s.latches := by
  rw [State.record_form s e]
@[simp] theorem State.record_ignored (s : State) (e : Event) : (s.record e).ignored = s.ignored := by
  rw [State.record_form s e]
@[simp] theorem State.record_ringCreds (s : State) (e : Event) : (s.record e).ringCreds = s.ringCreds := by
  rw [State.record_form s e]
@[simp] theorem State.record_sessions (s : State) (e : Event) : (s.record e).sessions = s.sessions := by
  rw [State.record_form s e]
@[simp] theorem State.record_sessionOut (s : State) (e : Event) : (s.record e).sessionOut = s.sessionOut := by
  rw [State.record_form s e]
@[simp] theorem State.record_programCred (s : State) (e : Event) : (s.record e).programCred = s.programCred := by
  rw [State.record_form s e]
@[simp] theorem State.record_identity (s : State) (e : Event) : (s.record e).identity = s.identity := by
  rw [State.record_form s e]
@[simp] theorem State.record_firmware (s : State) (e : Event) : (s.record e).firmware = s.firmware := by
  rw [State.record_form s e]
@[simp] theorem State.record_debugOpen (s : State) (e : Event) : (s.record e).debugOpen = s.debugOpen := by
  rw [State.record_form s e]
@[simp] theorem State.record_clock (s : State) (e : Event) : (s.record e).clock = s.clock := by
  rw [State.record_form s e]
@[simp] theorem State.record_watchdog (s : State) (e : Event) : (s.record e).watchdog = s.watchdog := by
  rw [State.record_form s e]
@[simp] theorem State.record_power (s : State) (e : Event) : (s.record e).power = s.power := by
  rw [State.record_form s e]
@[simp] theorem State.record_hostLink (s : State) (e : Event) : (s.record e).hostLink = s.hostLink := by
  rw [State.record_form s e]
@[simp] theorem State.record_island (s : State) (e : Event) : (s.record e).island = s.island := by
  rw [State.record_form s e]
@[simp] theorem State.record_field (s : State) (e : Event) : (s.record e).field = s.field := by
  rw [State.record_form s e]
@[simp] theorem State.record_modulators (s : State) (e : Event) : (s.record e).modulators = s.modulators := by
  rw [State.record_form s e]
@[simp] theorem State.record_arch (s : State) (e : Event) : (s.record e).arch = s.arch := by
  rw [State.record_form s e]
@[simp] theorem State.record_links (s : State) (e : Event) : (s.record e).links = s.links := by
  rw [State.record_form s e]
@[simp] theorem State.record_stations (s : State) (e : Event) : (s.record e).stations = s.stations := by
  rw [State.record_form s e]
@[simp] theorem State.record_train (s : State) (e : Event) : (s.record e).train = s.train := by
  rw [State.record_form s e]
@[simp] theorem State.record_cans (s : State) (e : Event) : (s.record e).cans = s.cans := by
  rw [State.record_form s e]
@[simp] theorem State.record_serials (s : State) (e : Event) : (s.record e).serials = s.serials := by
  rw [State.record_form s e]
@[simp] theorem State.record_canRx (s : State) (e : Event) : (s.record e).canRx = s.canRx := by
  rw [State.record_form s e]
@[simp] theorem State.record_serialRx (s : State) (e : Event) : (s.record e).serialRx = s.serialRx := by
  rw [State.record_form s e]

/-! ## event: every other field stays -/

@[simp] theorem State.event_pending (s : State) (a b c d e : Nat) : (s.event a b c d e).pending = s.pending := by
  unfold State.event; rw [State.record_form]
@[simp] theorem State.event_lastRead (s : State) (a b c d e : Nat) : (s.event a b c d e).lastRead = s.lastRead := by
  unfold State.event; rw [State.record_form]
@[simp] theorem State.event_fresh (s : State) (a b c d e : Nat) : (s.event a b c d e).fresh = s.fresh := by
  unfold State.event; rw [State.record_form]
@[simp] theorem State.event_variant (s : State) (a b c d e : Nat) : (s.event a b c d e).variant = s.variant := by
  unfold State.event; rw [State.record_form]
@[simp] theorem State.event_noReserves (s : State) (a b c d e : Nat) : (s.event a b c d e).noReserves = s.noReserves := by
  unfold State.event; rw [State.record_form]
@[simp] theorem State.event_md (s : State) (a b c d e : Nat) : (s.event a b c d e).md = s.md := by
  unfold State.event; rw [State.record_form]
@[simp] theorem State.event_work (s : State) (a b c d e : Nat) : (s.event a b c d e).work = s.work := by
  unfold State.event; rw [State.record_form]
@[simp] theorem State.event_tick (s : State) (a b c d e : Nat) : (s.event a b c d e).tick = s.tick := by
  unfold State.event; rw [State.record_form]
@[simp] theorem State.event_perStaged (s : State) (a b c d e : Nat) : (s.event a b c d e).perStaged = s.perStaged := by
  unfold State.event; rw [State.record_form]
@[simp] theorem State.event_ovrTile (s : State) (a b c d e : Nat) : (s.event a b c d e).ovrTile = s.ovrTile := by
  unfold State.event; rw [State.record_form]
@[simp] theorem State.event_ovrConsec (s : State) (a b c d e : Nat) : (s.event a b c d e).ovrConsec = s.ovrConsec := by
  unfold State.event; rw [State.record_form]
@[simp] theorem State.event_ovrValid (s : State) (a b c d e : Nat) : (s.event a b c d e).ovrValid = s.ovrValid := by
  unfold State.event; rw [State.record_form]
@[simp] theorem State.event_ovrTask (s : State) (a b c d e : Nat) : (s.event a b c d e).ovrTask = s.ovrTask := by
  unfold State.event; rw [State.record_form]
@[simp] theorem State.event_tiles (s : State) (a b c d e : Nat) : (s.event a b c d e).tiles = s.tiles := by
  unfold State.event; rw [State.record_form]
@[simp] theorem State.event_dies (s : State) (a b c d e : Nat) : (s.event a b c d e).dies = s.dies := by
  unfold State.event; rw [State.record_form]
@[simp] theorem State.event_persist (s : State) (a b c d e : Nat) : (s.event a b c d e).persist = s.persist := by
  unfold State.event; rw [State.record_form]
@[simp] theorem State.event_online (s : State) (a b c d e : Nat) : (s.event a b c d e).online = s.online := by
  unfold State.event; rw [State.record_form]
@[simp] theorem State.event_rings (s : State) (a b c d e : Nat) : (s.event a b c d e).rings = s.rings := by
  unfold State.event; rw [State.record_form]
@[simp] theorem State.event_channels (s : State) (a b c d e : Nat) : (s.event a b c d e).channels = s.channels := by
  unfold State.event; rw [State.record_form]
@[simp] theorem State.event_refusedSends (s : State) (a b c d e : Nat) : (s.event a b c d e).refusedSends = s.refusedSends := by
  unfold State.event; rw [State.record_form]
@[simp] theorem State.event_trackDiscards (s : State) (a b c d e : Nat) : (s.event a b c d e).trackDiscards = s.trackDiscards := by
  unfold State.event; rw [State.record_form]
@[simp] theorem State.event_locks (s : State) (a b c d e : Nat) : (s.event a b c d e).locks = s.locks := by
  unfold State.event; rw [State.record_form]
@[simp] theorem State.event_msix (s : State) (a b c d e : Nat) : (s.event a b c d e).msix = s.msix := by
  unfold State.event; rw [State.record_form]
@[simp] theorem State.event_foremanEvents (s : State) (a b c d e : Nat) : (s.event a b c d e).foremanEvents = s.foremanEvents := by
  unfold State.event; rw [State.record_form]
@[simp] theorem State.event_pages (s : State) (a b c d e : Nat) : (s.event a b c d e).pages = s.pages := by
  unfold State.event; rw [State.record_form]
@[simp] theorem State.event_setup (s : State) (a b c d e : Nat) : (s.event a b c d e).setup = s.setup := by
  unfold State.event; rw [State.record_form]
@[simp] theorem State.event_setupTick (s : State) (a b c d e : Nat) : (s.event a b c d e).setupTick = s.setupTick := by
  unfold State.event; rw [State.record_form]
@[simp] theorem State.event_setupStart (s : State) (a b c d e : Nat) : (s.event a b c d e).setupStart = s.setupStart := by
  unfold State.event; rw [State.record_form]
@[simp] theorem State.event_latches (s : State) (a b c d e : Nat) : (s.event a b c d e).latches = s.latches := by
  unfold State.event; rw [State.record_form]
@[simp] theorem State.event_ignored (s : State) (a b c d e : Nat) : (s.event a b c d e).ignored = s.ignored := by
  unfold State.event; rw [State.record_form]
@[simp] theorem State.event_ringCreds (s : State) (a b c d e : Nat) : (s.event a b c d e).ringCreds = s.ringCreds := by
  unfold State.event; rw [State.record_form]
@[simp] theorem State.event_sessions (s : State) (a b c d e : Nat) : (s.event a b c d e).sessions = s.sessions := by
  unfold State.event; rw [State.record_form]
@[simp] theorem State.event_sessionOut (s : State) (a b c d e : Nat) : (s.event a b c d e).sessionOut = s.sessionOut := by
  unfold State.event; rw [State.record_form]
@[simp] theorem State.event_programCred (s : State) (a b c d e : Nat) : (s.event a b c d e).programCred = s.programCred := by
  unfold State.event; rw [State.record_form]
@[simp] theorem State.event_identity (s : State) (a b c d e : Nat) : (s.event a b c d e).identity = s.identity := by
  unfold State.event; rw [State.record_form]
@[simp] theorem State.event_firmware (s : State) (a b c d e : Nat) : (s.event a b c d e).firmware = s.firmware := by
  unfold State.event; rw [State.record_form]
@[simp] theorem State.event_debugOpen (s : State) (a b c d e : Nat) : (s.event a b c d e).debugOpen = s.debugOpen := by
  unfold State.event; rw [State.record_form]
@[simp] theorem State.event_clock (s : State) (a b c d e : Nat) : (s.event a b c d e).clock = s.clock := by
  unfold State.event; rw [State.record_form]
@[simp] theorem State.event_watchdog (s : State) (a b c d e : Nat) : (s.event a b c d e).watchdog = s.watchdog := by
  unfold State.event; rw [State.record_form]
@[simp] theorem State.event_power (s : State) (a b c d e : Nat) : (s.event a b c d e).power = s.power := by
  unfold State.event; rw [State.record_form]
@[simp] theorem State.event_hostLink (s : State) (a b c d e : Nat) : (s.event a b c d e).hostLink = s.hostLink := by
  unfold State.event; rw [State.record_form]
@[simp] theorem State.event_island (s : State) (a b c d e : Nat) : (s.event a b c d e).island = s.island := by
  unfold State.event; rw [State.record_form]
@[simp] theorem State.event_field (s : State) (a b c d e : Nat) : (s.event a b c d e).field = s.field := by
  unfold State.event; rw [State.record_form]
@[simp] theorem State.event_modulators (s : State) (a b c d e : Nat) : (s.event a b c d e).modulators = s.modulators := by
  unfold State.event; rw [State.record_form]
@[simp] theorem State.event_arch (s : State) (a b c d e : Nat) : (s.event a b c d e).arch = s.arch := by
  unfold State.event; rw [State.record_form]
@[simp] theorem State.event_links (s : State) (a b c d e : Nat) : (s.event a b c d e).links = s.links := by
  unfold State.event; rw [State.record_form]
@[simp] theorem State.event_stations (s : State) (a b c d e : Nat) : (s.event a b c d e).stations = s.stations := by
  unfold State.event; rw [State.record_form]
@[simp] theorem State.event_train (s : State) (a b c d e : Nat) : (s.event a b c d e).train = s.train := by
  unfold State.event; rw [State.record_form]
@[simp] theorem State.event_cans (s : State) (a b c d e : Nat) : (s.event a b c d e).cans = s.cans := by
  unfold State.event; rw [State.record_form]
@[simp] theorem State.event_serials (s : State) (a b c d e : Nat) : (s.event a b c d e).serials = s.serials := by
  unfold State.event; rw [State.record_form]
@[simp] theorem State.event_canRx (s : State) (a b c d e : Nat) : (s.event a b c d e).canRx = s.canRx := by
  unfold State.event; rw [State.record_form]
@[simp] theorem State.event_serialRx (s : State) (a b c d e : Nat) : (s.event a b c d e).serialRx = s.serialRx := by
  unfold State.event; rw [State.record_form]

/-! ## named: every other field stays -/

@[simp] theorem State.named_pending (s : State) (n : EventName) (a b : Nat) (c : Cred) (l : List Nat) : (s.named n a b c l).pending = s.pending := by
  unfold State.named; rw [State.record_form]
@[simp] theorem State.named_lastRead (s : State) (n : EventName) (a b : Nat) (c : Cred) (l : List Nat) : (s.named n a b c l).lastRead = s.lastRead := by
  unfold State.named; rw [State.record_form]
@[simp] theorem State.named_fresh (s : State) (n : EventName) (a b : Nat) (c : Cred) (l : List Nat) : (s.named n a b c l).fresh = s.fresh := by
  unfold State.named; rw [State.record_form]
@[simp] theorem State.named_variant (s : State) (n : EventName) (a b : Nat) (c : Cred) (l : List Nat) : (s.named n a b c l).variant = s.variant := by
  unfold State.named; rw [State.record_form]
@[simp] theorem State.named_noReserves (s : State) (n : EventName) (a b : Nat) (c : Cred) (l : List Nat) : (s.named n a b c l).noReserves = s.noReserves := by
  unfold State.named; rw [State.record_form]
@[simp] theorem State.named_md (s : State) (n : EventName) (a b : Nat) (c : Cred) (l : List Nat) : (s.named n a b c l).md = s.md := by
  unfold State.named; rw [State.record_form]
@[simp] theorem State.named_work (s : State) (n : EventName) (a b : Nat) (c : Cred) (l : List Nat) : (s.named n a b c l).work = s.work := by
  unfold State.named; rw [State.record_form]
@[simp] theorem State.named_tick (s : State) (n : EventName) (a b : Nat) (c : Cred) (l : List Nat) : (s.named n a b c l).tick = s.tick := by
  unfold State.named; rw [State.record_form]
@[simp] theorem State.named_perStaged (s : State) (n : EventName) (a b : Nat) (c : Cred) (l : List Nat) : (s.named n a b c l).perStaged = s.perStaged := by
  unfold State.named; rw [State.record_form]
@[simp] theorem State.named_ovrTile (s : State) (n : EventName) (a b : Nat) (c : Cred) (l : List Nat) : (s.named n a b c l).ovrTile = s.ovrTile := by
  unfold State.named; rw [State.record_form]
@[simp] theorem State.named_ovrConsec (s : State) (n : EventName) (a b : Nat) (c : Cred) (l : List Nat) : (s.named n a b c l).ovrConsec = s.ovrConsec := by
  unfold State.named; rw [State.record_form]
@[simp] theorem State.named_ovrValid (s : State) (n : EventName) (a b : Nat) (c : Cred) (l : List Nat) : (s.named n a b c l).ovrValid = s.ovrValid := by
  unfold State.named; rw [State.record_form]
@[simp] theorem State.named_ovrTask (s : State) (n : EventName) (a b : Nat) (c : Cred) (l : List Nat) : (s.named n a b c l).ovrTask = s.ovrTask := by
  unfold State.named; rw [State.record_form]
@[simp] theorem State.named_tiles (s : State) (n : EventName) (a b : Nat) (c : Cred) (l : List Nat) : (s.named n a b c l).tiles = s.tiles := by
  unfold State.named; rw [State.record_form]
@[simp] theorem State.named_dies (s : State) (n : EventName) (a b : Nat) (c : Cred) (l : List Nat) : (s.named n a b c l).dies = s.dies := by
  unfold State.named; rw [State.record_form]
@[simp] theorem State.named_persist (s : State) (n : EventName) (a b : Nat) (c : Cred) (l : List Nat) : (s.named n a b c l).persist = s.persist := by
  unfold State.named; rw [State.record_form]
@[simp] theorem State.named_online (s : State) (n : EventName) (a b : Nat) (c : Cred) (l : List Nat) : (s.named n a b c l).online = s.online := by
  unfold State.named; rw [State.record_form]
@[simp] theorem State.named_rings (s : State) (n : EventName) (a b : Nat) (c : Cred) (l : List Nat) : (s.named n a b c l).rings = s.rings := by
  unfold State.named; rw [State.record_form]
@[simp] theorem State.named_channels (s : State) (n : EventName) (a b : Nat) (c : Cred) (l : List Nat) : (s.named n a b c l).channels = s.channels := by
  unfold State.named; rw [State.record_form]
@[simp] theorem State.named_refusedSends (s : State) (n : EventName) (a b : Nat) (c : Cred) (l : List Nat) : (s.named n a b c l).refusedSends = s.refusedSends := by
  unfold State.named; rw [State.record_form]
@[simp] theorem State.named_trackDiscards (s : State) (n : EventName) (a b : Nat) (c : Cred) (l : List Nat) : (s.named n a b c l).trackDiscards = s.trackDiscards := by
  unfold State.named; rw [State.record_form]
@[simp] theorem State.named_locks (s : State) (n : EventName) (a b : Nat) (c : Cred) (l : List Nat) : (s.named n a b c l).locks = s.locks := by
  unfold State.named; rw [State.record_form]
@[simp] theorem State.named_msix (s : State) (n : EventName) (a b : Nat) (c : Cred) (l : List Nat) : (s.named n a b c l).msix = s.msix := by
  unfold State.named; rw [State.record_form]
@[simp] theorem State.named_foremanEvents (s : State) (n : EventName) (a b : Nat) (c : Cred) (l : List Nat) : (s.named n a b c l).foremanEvents = s.foremanEvents := by
  unfold State.named; rw [State.record_form]
@[simp] theorem State.named_pages (s : State) (n : EventName) (a b : Nat) (c : Cred) (l : List Nat) : (s.named n a b c l).pages = s.pages := by
  unfold State.named; rw [State.record_form]
@[simp] theorem State.named_setup (s : State) (n : EventName) (a b : Nat) (c : Cred) (l : List Nat) : (s.named n a b c l).setup = s.setup := by
  unfold State.named; rw [State.record_form]
@[simp] theorem State.named_setupTick (s : State) (n : EventName) (a b : Nat) (c : Cred) (l : List Nat) : (s.named n a b c l).setupTick = s.setupTick := by
  unfold State.named; rw [State.record_form]
@[simp] theorem State.named_setupStart (s : State) (n : EventName) (a b : Nat) (c : Cred) (l : List Nat) : (s.named n a b c l).setupStart = s.setupStart := by
  unfold State.named; rw [State.record_form]
@[simp] theorem State.named_latches (s : State) (n : EventName) (a b : Nat) (c : Cred) (l : List Nat) : (s.named n a b c l).latches = s.latches := by
  unfold State.named; rw [State.record_form]
@[simp] theorem State.named_ignored (s : State) (n : EventName) (a b : Nat) (c : Cred) (l : List Nat) : (s.named n a b c l).ignored = s.ignored := by
  unfold State.named; rw [State.record_form]
@[simp] theorem State.named_ringCreds (s : State) (n : EventName) (a b : Nat) (c : Cred) (l : List Nat) : (s.named n a b c l).ringCreds = s.ringCreds := by
  unfold State.named; rw [State.record_form]
@[simp] theorem State.named_sessions (s : State) (n : EventName) (a b : Nat) (c : Cred) (l : List Nat) : (s.named n a b c l).sessions = s.sessions := by
  unfold State.named; rw [State.record_form]
@[simp] theorem State.named_sessionOut (s : State) (n : EventName) (a b : Nat) (c : Cred) (l : List Nat) : (s.named n a b c l).sessionOut = s.sessionOut := by
  unfold State.named; rw [State.record_form]
@[simp] theorem State.named_programCred (s : State) (n : EventName) (a b : Nat) (c : Cred) (l : List Nat) : (s.named n a b c l).programCred = s.programCred := by
  unfold State.named; rw [State.record_form]
@[simp] theorem State.named_identity (s : State) (n : EventName) (a b : Nat) (c : Cred) (l : List Nat) : (s.named n a b c l).identity = s.identity := by
  unfold State.named; rw [State.record_form]
@[simp] theorem State.named_firmware (s : State) (n : EventName) (a b : Nat) (c : Cred) (l : List Nat) : (s.named n a b c l).firmware = s.firmware := by
  unfold State.named; rw [State.record_form]
@[simp] theorem State.named_debugOpen (s : State) (n : EventName) (a b : Nat) (c : Cred) (l : List Nat) : (s.named n a b c l).debugOpen = s.debugOpen := by
  unfold State.named; rw [State.record_form]
@[simp] theorem State.named_clock (s : State) (n : EventName) (a b : Nat) (c : Cred) (l : List Nat) : (s.named n a b c l).clock = s.clock := by
  unfold State.named; rw [State.record_form]
@[simp] theorem State.named_watchdog (s : State) (n : EventName) (a b : Nat) (c : Cred) (l : List Nat) : (s.named n a b c l).watchdog = s.watchdog := by
  unfold State.named; rw [State.record_form]
@[simp] theorem State.named_power (s : State) (n : EventName) (a b : Nat) (c : Cred) (l : List Nat) : (s.named n a b c l).power = s.power := by
  unfold State.named; rw [State.record_form]
@[simp] theorem State.named_hostLink (s : State) (n : EventName) (a b : Nat) (c : Cred) (l : List Nat) : (s.named n a b c l).hostLink = s.hostLink := by
  unfold State.named; rw [State.record_form]
@[simp] theorem State.named_island (s : State) (n : EventName) (a b : Nat) (c : Cred) (l : List Nat) : (s.named n a b c l).island = s.island := by
  unfold State.named; rw [State.record_form]
@[simp] theorem State.named_field (s : State) (n : EventName) (a b : Nat) (c : Cred) (l : List Nat) : (s.named n a b c l).field = s.field := by
  unfold State.named; rw [State.record_form]
@[simp] theorem State.named_modulators (s : State) (n : EventName) (a b : Nat) (c : Cred) (l : List Nat) : (s.named n a b c l).modulators = s.modulators := by
  unfold State.named; rw [State.record_form]
@[simp] theorem State.named_arch (s : State) (n : EventName) (a b : Nat) (c : Cred) (l : List Nat) : (s.named n a b c l).arch = s.arch := by
  unfold State.named; rw [State.record_form]
@[simp] theorem State.named_links (s : State) (n : EventName) (a b : Nat) (c : Cred) (l : List Nat) : (s.named n a b c l).links = s.links := by
  unfold State.named; rw [State.record_form]
@[simp] theorem State.named_stations (s : State) (n : EventName) (a b : Nat) (c : Cred) (l : List Nat) : (s.named n a b c l).stations = s.stations := by
  unfold State.named; rw [State.record_form]
@[simp] theorem State.named_train (s : State) (n : EventName) (a b : Nat) (c : Cred) (l : List Nat) : (s.named n a b c l).train = s.train := by
  unfold State.named; rw [State.record_form]
@[simp] theorem State.named_cans (s : State) (n : EventName) (a b : Nat) (c : Cred) (l : List Nat) : (s.named n a b c l).cans = s.cans := by
  unfold State.named; rw [State.record_form]
@[simp] theorem State.named_serials (s : State) (n : EventName) (a b : Nat) (c : Cred) (l : List Nat) : (s.named n a b c l).serials = s.serials := by
  unfold State.named; rw [State.record_form]
@[simp] theorem State.named_canRx (s : State) (n : EventName) (a b : Nat) (c : Cred) (l : List Nat) : (s.named n a b c l).canRx = s.canRx := by
  unfold State.named; rw [State.record_form]
@[simp] theorem State.named_serialRx (s : State) (n : EventName) (a b : Nat) (c : Cred) (l : List Nat) : (s.named n a b c l).serialRx = s.serialRx := by
  unfold State.named; rw [State.record_form]

/-! ## credEvent: every other field stays -/

@[simp] theorem State.credEvent_pending (s : State) (a b c : Nat) (d : Cred) : (s.credEvent a b c d).pending = s.pending := by
  unfold State.credEvent; rw [State.record_form]
@[simp] theorem State.credEvent_lastRead (s : State) (a b c : Nat) (d : Cred) : (s.credEvent a b c d).lastRead = s.lastRead := by
  unfold State.credEvent; rw [State.record_form]
@[simp] theorem State.credEvent_fresh (s : State) (a b c : Nat) (d : Cred) : (s.credEvent a b c d).fresh = s.fresh := by
  unfold State.credEvent; rw [State.record_form]
@[simp] theorem State.credEvent_variant (s : State) (a b c : Nat) (d : Cred) : (s.credEvent a b c d).variant = s.variant := by
  unfold State.credEvent; rw [State.record_form]
@[simp] theorem State.credEvent_noReserves (s : State) (a b c : Nat) (d : Cred) : (s.credEvent a b c d).noReserves = s.noReserves := by
  unfold State.credEvent; rw [State.record_form]
@[simp] theorem State.credEvent_md (s : State) (a b c : Nat) (d : Cred) : (s.credEvent a b c d).md = s.md := by
  unfold State.credEvent; rw [State.record_form]
@[simp] theorem State.credEvent_work (s : State) (a b c : Nat) (d : Cred) : (s.credEvent a b c d).work = s.work := by
  unfold State.credEvent; rw [State.record_form]
@[simp] theorem State.credEvent_tick (s : State) (a b c : Nat) (d : Cred) : (s.credEvent a b c d).tick = s.tick := by
  unfold State.credEvent; rw [State.record_form]
@[simp] theorem State.credEvent_perStaged (s : State) (a b c : Nat) (d : Cred) : (s.credEvent a b c d).perStaged = s.perStaged := by
  unfold State.credEvent; rw [State.record_form]
@[simp] theorem State.credEvent_ovrTile (s : State) (a b c : Nat) (d : Cred) : (s.credEvent a b c d).ovrTile = s.ovrTile := by
  unfold State.credEvent; rw [State.record_form]
@[simp] theorem State.credEvent_ovrConsec (s : State) (a b c : Nat) (d : Cred) : (s.credEvent a b c d).ovrConsec = s.ovrConsec := by
  unfold State.credEvent; rw [State.record_form]
@[simp] theorem State.credEvent_ovrValid (s : State) (a b c : Nat) (d : Cred) : (s.credEvent a b c d).ovrValid = s.ovrValid := by
  unfold State.credEvent; rw [State.record_form]
@[simp] theorem State.credEvent_ovrTask (s : State) (a b c : Nat) (d : Cred) : (s.credEvent a b c d).ovrTask = s.ovrTask := by
  unfold State.credEvent; rw [State.record_form]
@[simp] theorem State.credEvent_tiles (s : State) (a b c : Nat) (d : Cred) : (s.credEvent a b c d).tiles = s.tiles := by
  unfold State.credEvent; rw [State.record_form]
@[simp] theorem State.credEvent_dies (s : State) (a b c : Nat) (d : Cred) : (s.credEvent a b c d).dies = s.dies := by
  unfold State.credEvent; rw [State.record_form]
@[simp] theorem State.credEvent_persist (s : State) (a b c : Nat) (d : Cred) : (s.credEvent a b c d).persist = s.persist := by
  unfold State.credEvent; rw [State.record_form]
@[simp] theorem State.credEvent_online (s : State) (a b c : Nat) (d : Cred) : (s.credEvent a b c d).online = s.online := by
  unfold State.credEvent; rw [State.record_form]
@[simp] theorem State.credEvent_rings (s : State) (a b c : Nat) (d : Cred) : (s.credEvent a b c d).rings = s.rings := by
  unfold State.credEvent; rw [State.record_form]
@[simp] theorem State.credEvent_channels (s : State) (a b c : Nat) (d : Cred) : (s.credEvent a b c d).channels = s.channels := by
  unfold State.credEvent; rw [State.record_form]
@[simp] theorem State.credEvent_refusedSends (s : State) (a b c : Nat) (d : Cred) : (s.credEvent a b c d).refusedSends = s.refusedSends := by
  unfold State.credEvent; rw [State.record_form]
@[simp] theorem State.credEvent_trackDiscards (s : State) (a b c : Nat) (d : Cred) : (s.credEvent a b c d).trackDiscards = s.trackDiscards := by
  unfold State.credEvent; rw [State.record_form]
@[simp] theorem State.credEvent_locks (s : State) (a b c : Nat) (d : Cred) : (s.credEvent a b c d).locks = s.locks := by
  unfold State.credEvent; rw [State.record_form]
@[simp] theorem State.credEvent_msix (s : State) (a b c : Nat) (d : Cred) : (s.credEvent a b c d).msix = s.msix := by
  unfold State.credEvent; rw [State.record_form]
@[simp] theorem State.credEvent_foremanEvents (s : State) (a b c : Nat) (d : Cred) : (s.credEvent a b c d).foremanEvents = s.foremanEvents := by
  unfold State.credEvent; rw [State.record_form]
@[simp] theorem State.credEvent_pages (s : State) (a b c : Nat) (d : Cred) : (s.credEvent a b c d).pages = s.pages := by
  unfold State.credEvent; rw [State.record_form]
@[simp] theorem State.credEvent_setup (s : State) (a b c : Nat) (d : Cred) : (s.credEvent a b c d).setup = s.setup := by
  unfold State.credEvent; rw [State.record_form]
@[simp] theorem State.credEvent_setupTick (s : State) (a b c : Nat) (d : Cred) : (s.credEvent a b c d).setupTick = s.setupTick := by
  unfold State.credEvent; rw [State.record_form]
@[simp] theorem State.credEvent_setupStart (s : State) (a b c : Nat) (d : Cred) : (s.credEvent a b c d).setupStart = s.setupStart := by
  unfold State.credEvent; rw [State.record_form]
@[simp] theorem State.credEvent_latches (s : State) (a b c : Nat) (d : Cred) : (s.credEvent a b c d).latches = s.latches := by
  unfold State.credEvent; rw [State.record_form]
@[simp] theorem State.credEvent_ignored (s : State) (a b c : Nat) (d : Cred) : (s.credEvent a b c d).ignored = s.ignored := by
  unfold State.credEvent; rw [State.record_form]
@[simp] theorem State.credEvent_ringCreds (s : State) (a b c : Nat) (d : Cred) : (s.credEvent a b c d).ringCreds = s.ringCreds := by
  unfold State.credEvent; rw [State.record_form]
@[simp] theorem State.credEvent_sessions (s : State) (a b c : Nat) (d : Cred) : (s.credEvent a b c d).sessions = s.sessions := by
  unfold State.credEvent; rw [State.record_form]
@[simp] theorem State.credEvent_sessionOut (s : State) (a b c : Nat) (d : Cred) : (s.credEvent a b c d).sessionOut = s.sessionOut := by
  unfold State.credEvent; rw [State.record_form]
@[simp] theorem State.credEvent_programCred (s : State) (a b c : Nat) (d : Cred) : (s.credEvent a b c d).programCred = s.programCred := by
  unfold State.credEvent; rw [State.record_form]
@[simp] theorem State.credEvent_identity (s : State) (a b c : Nat) (d : Cred) : (s.credEvent a b c d).identity = s.identity := by
  unfold State.credEvent; rw [State.record_form]
@[simp] theorem State.credEvent_firmware (s : State) (a b c : Nat) (d : Cred) : (s.credEvent a b c d).firmware = s.firmware := by
  unfold State.credEvent; rw [State.record_form]
@[simp] theorem State.credEvent_debugOpen (s : State) (a b c : Nat) (d : Cred) : (s.credEvent a b c d).debugOpen = s.debugOpen := by
  unfold State.credEvent; rw [State.record_form]
@[simp] theorem State.credEvent_clock (s : State) (a b c : Nat) (d : Cred) : (s.credEvent a b c d).clock = s.clock := by
  unfold State.credEvent; rw [State.record_form]
@[simp] theorem State.credEvent_watchdog (s : State) (a b c : Nat) (d : Cred) : (s.credEvent a b c d).watchdog = s.watchdog := by
  unfold State.credEvent; rw [State.record_form]
@[simp] theorem State.credEvent_power (s : State) (a b c : Nat) (d : Cred) : (s.credEvent a b c d).power = s.power := by
  unfold State.credEvent; rw [State.record_form]
@[simp] theorem State.credEvent_hostLink (s : State) (a b c : Nat) (d : Cred) : (s.credEvent a b c d).hostLink = s.hostLink := by
  unfold State.credEvent; rw [State.record_form]
@[simp] theorem State.credEvent_island (s : State) (a b c : Nat) (d : Cred) : (s.credEvent a b c d).island = s.island := by
  unfold State.credEvent; rw [State.record_form]
@[simp] theorem State.credEvent_field (s : State) (a b c : Nat) (d : Cred) : (s.credEvent a b c d).field = s.field := by
  unfold State.credEvent; rw [State.record_form]
@[simp] theorem State.credEvent_modulators (s : State) (a b c : Nat) (d : Cred) : (s.credEvent a b c d).modulators = s.modulators := by
  unfold State.credEvent; rw [State.record_form]
@[simp] theorem State.credEvent_arch (s : State) (a b c : Nat) (d : Cred) : (s.credEvent a b c d).arch = s.arch := by
  unfold State.credEvent; rw [State.record_form]
@[simp] theorem State.credEvent_links (s : State) (a b c : Nat) (d : Cred) : (s.credEvent a b c d).links = s.links := by
  unfold State.credEvent; rw [State.record_form]
@[simp] theorem State.credEvent_stations (s : State) (a b c : Nat) (d : Cred) : (s.credEvent a b c d).stations = s.stations := by
  unfold State.credEvent; rw [State.record_form]
@[simp] theorem State.credEvent_train (s : State) (a b c : Nat) (d : Cred) : (s.credEvent a b c d).train = s.train := by
  unfold State.credEvent; rw [State.record_form]
@[simp] theorem State.credEvent_cans (s : State) (a b c : Nat) (d : Cred) : (s.credEvent a b c d).cans = s.cans := by
  unfold State.credEvent; rw [State.record_form]
@[simp] theorem State.credEvent_serials (s : State) (a b c : Nat) (d : Cred) : (s.credEvent a b c d).serials = s.serials := by
  unfold State.credEvent; rw [State.record_form]
@[simp] theorem State.credEvent_canRx (s : State) (a b c : Nat) (d : Cred) : (s.credEvent a b c d).canRx = s.canRx := by
  unfold State.credEvent; rw [State.record_form]
@[simp] theorem State.credEvent_serialRx (s : State) (a b c : Nat) (d : Cred) : (s.credEvent a b c d).serialRx = s.serialRx := by
  unfold State.credEvent; rw [State.record_form]

/-! ## doorbell: every other field stays -/

@[simp] theorem State.doorbell_pending (s : State) (m v : Nat) : (s.doorbell m v).pending = s.pending := by
  rw [State.doorbell_form s m v]
@[simp] theorem State.doorbell_lastRead (s : State) (m v : Nat) : (s.doorbell m v).lastRead = s.lastRead := by
  rw [State.doorbell_form s m v]
@[simp] theorem State.doorbell_fresh (s : State) (m v : Nat) : (s.doorbell m v).fresh = s.fresh := by
  rw [State.doorbell_form s m v]
@[simp] theorem State.doorbell_variant (s : State) (m v : Nat) : (s.doorbell m v).variant = s.variant := by
  rw [State.doorbell_form s m v]
@[simp] theorem State.doorbell_noReserves (s : State) (m v : Nat) : (s.doorbell m v).noReserves = s.noReserves := by
  rw [State.doorbell_form s m v]
@[simp] theorem State.doorbell_md (s : State) (m v : Nat) : (s.doorbell m v).md = s.md := by
  rw [State.doorbell_form s m v]
@[simp] theorem State.doorbell_work (s : State) (m v : Nat) : (s.doorbell m v).work = s.work := by
  rw [State.doorbell_form s m v]
@[simp] theorem State.doorbell_tick (s : State) (m v : Nat) : (s.doorbell m v).tick = s.tick := by
  rw [State.doorbell_form s m v]
@[simp] theorem State.doorbell_perStaged (s : State) (m v : Nat) : (s.doorbell m v).perStaged = s.perStaged := by
  rw [State.doorbell_form s m v]
@[simp] theorem State.doorbell_ovrTile (s : State) (m v : Nat) : (s.doorbell m v).ovrTile = s.ovrTile := by
  rw [State.doorbell_form s m v]
@[simp] theorem State.doorbell_ovrConsec (s : State) (m v : Nat) : (s.doorbell m v).ovrConsec = s.ovrConsec := by
  rw [State.doorbell_form s m v]
@[simp] theorem State.doorbell_ovrValid (s : State) (m v : Nat) : (s.doorbell m v).ovrValid = s.ovrValid := by
  rw [State.doorbell_form s m v]
@[simp] theorem State.doorbell_ovrTask (s : State) (m v : Nat) : (s.doorbell m v).ovrTask = s.ovrTask := by
  rw [State.doorbell_form s m v]
@[simp] theorem State.doorbell_tiles (s : State) (m v : Nat) : (s.doorbell m v).tiles = s.tiles := by
  rw [State.doorbell_form s m v]
@[simp] theorem State.doorbell_dies (s : State) (m v : Nat) : (s.doorbell m v).dies = s.dies := by
  rw [State.doorbell_form s m v]
@[simp] theorem State.doorbell_persist (s : State) (m v : Nat) : (s.doorbell m v).persist = s.persist := by
  rw [State.doorbell_form s m v]
@[simp] theorem State.doorbell_online (s : State) (m v : Nat) : (s.doorbell m v).online = s.online := by
  rw [State.doorbell_form s m v]
@[simp] theorem State.doorbell_rings (s : State) (m v : Nat) : (s.doorbell m v).rings = s.rings := by
  rw [State.doorbell_form s m v]
@[simp] theorem State.doorbell_channels (s : State) (m v : Nat) : (s.doorbell m v).channels = s.channels := by
  rw [State.doorbell_form s m v]
@[simp] theorem State.doorbell_refusedSends (s : State) (m v : Nat) : (s.doorbell m v).refusedSends = s.refusedSends := by
  rw [State.doorbell_form s m v]
@[simp] theorem State.doorbell_trackDiscards (s : State) (m v : Nat) : (s.doorbell m v).trackDiscards = s.trackDiscards := by
  rw [State.doorbell_form s m v]
@[simp] theorem State.doorbell_locks (s : State) (m v : Nat) : (s.doorbell m v).locks = s.locks := by
  rw [State.doorbell_form s m v]
@[simp] theorem State.doorbell_recorder (s : State) (m v : Nat) : (s.doorbell m v).recorder = s.recorder := by
  rw [State.doorbell_form s m v]
@[simp] theorem State.doorbell_pages (s : State) (m v : Nat) : (s.doorbell m v).pages = s.pages := by
  rw [State.doorbell_form s m v]
@[simp] theorem State.doorbell_setup (s : State) (m v : Nat) : (s.doorbell m v).setup = s.setup := by
  rw [State.doorbell_form s m v]
@[simp] theorem State.doorbell_setupTick (s : State) (m v : Nat) : (s.doorbell m v).setupTick = s.setupTick := by
  rw [State.doorbell_form s m v]
@[simp] theorem State.doorbell_setupStart (s : State) (m v : Nat) : (s.doorbell m v).setupStart = s.setupStart := by
  rw [State.doorbell_form s m v]
@[simp] theorem State.doorbell_latches (s : State) (m v : Nat) : (s.doorbell m v).latches = s.latches := by
  rw [State.doorbell_form s m v]
@[simp] theorem State.doorbell_ignored (s : State) (m v : Nat) : (s.doorbell m v).ignored = s.ignored := by
  rw [State.doorbell_form s m v]
@[simp] theorem State.doorbell_ringCreds (s : State) (m v : Nat) : (s.doorbell m v).ringCreds = s.ringCreds := by
  rw [State.doorbell_form s m v]
@[simp] theorem State.doorbell_sessions (s : State) (m v : Nat) : (s.doorbell m v).sessions = s.sessions := by
  rw [State.doorbell_form s m v]
@[simp] theorem State.doorbell_sessionOut (s : State) (m v : Nat) : (s.doorbell m v).sessionOut = s.sessionOut := by
  rw [State.doorbell_form s m v]
@[simp] theorem State.doorbell_programCred (s : State) (m v : Nat) : (s.doorbell m v).programCred = s.programCred := by
  rw [State.doorbell_form s m v]
@[simp] theorem State.doorbell_identity (s : State) (m v : Nat) : (s.doorbell m v).identity = s.identity := by
  rw [State.doorbell_form s m v]
@[simp] theorem State.doorbell_firmware (s : State) (m v : Nat) : (s.doorbell m v).firmware = s.firmware := by
  rw [State.doorbell_form s m v]
@[simp] theorem State.doorbell_debugOpen (s : State) (m v : Nat) : (s.doorbell m v).debugOpen = s.debugOpen := by
  rw [State.doorbell_form s m v]
@[simp] theorem State.doorbell_clock (s : State) (m v : Nat) : (s.doorbell m v).clock = s.clock := by
  rw [State.doorbell_form s m v]
@[simp] theorem State.doorbell_watchdog (s : State) (m v : Nat) : (s.doorbell m v).watchdog = s.watchdog := by
  rw [State.doorbell_form s m v]
@[simp] theorem State.doorbell_power (s : State) (m v : Nat) : (s.doorbell m v).power = s.power := by
  rw [State.doorbell_form s m v]
@[simp] theorem State.doorbell_hostLink (s : State) (m v : Nat) : (s.doorbell m v).hostLink = s.hostLink := by
  rw [State.doorbell_form s m v]
@[simp] theorem State.doorbell_island (s : State) (m v : Nat) : (s.doorbell m v).island = s.island := by
  rw [State.doorbell_form s m v]
@[simp] theorem State.doorbell_field (s : State) (m v : Nat) : (s.doorbell m v).field = s.field := by
  rw [State.doorbell_form s m v]
@[simp] theorem State.doorbell_modulators (s : State) (m v : Nat) : (s.doorbell m v).modulators = s.modulators := by
  rw [State.doorbell_form s m v]
@[simp] theorem State.doorbell_arch (s : State) (m v : Nat) : (s.doorbell m v).arch = s.arch := by
  rw [State.doorbell_form s m v]
@[simp] theorem State.doorbell_links (s : State) (m v : Nat) : (s.doorbell m v).links = s.links := by
  rw [State.doorbell_form s m v]
@[simp] theorem State.doorbell_stations (s : State) (m v : Nat) : (s.doorbell m v).stations = s.stations := by
  rw [State.doorbell_form s m v]
@[simp] theorem State.doorbell_train (s : State) (m v : Nat) : (s.doorbell m v).train = s.train := by
  rw [State.doorbell_form s m v]
@[simp] theorem State.doorbell_cans (s : State) (m v : Nat) : (s.doorbell m v).cans = s.cans := by
  rw [State.doorbell_form s m v]
@[simp] theorem State.doorbell_serials (s : State) (m v : Nat) : (s.doorbell m v).serials = s.serials := by
  rw [State.doorbell_form s m v]
@[simp] theorem State.doorbell_canRx (s : State) (m v : Nat) : (s.doorbell m v).canRx = s.canRx := by
  rw [State.doorbell_form s m v]
@[simp] theorem State.doorbell_serialRx (s : State) (m v : Nat) : (s.doorbell m v).serialRx = s.serialRx := by
  rw [State.doorbell_form s m v]

/-! ## complete: every other field stays -/

@[simp] theorem State.complete_pending (s : State) (k : Ticket) (p : Reply) : (s.complete k p).pending = s.pending := by
  rw [State.complete_form s k p]
@[simp] theorem State.complete_lastRead (s : State) (k : Ticket) (p : Reply) : (s.complete k p).lastRead = s.lastRead := by
  rw [State.complete_form s k p]
@[simp] theorem State.complete_fresh (s : State) (k : Ticket) (p : Reply) : (s.complete k p).fresh = s.fresh := by
  rw [State.complete_form s k p]
@[simp] theorem State.complete_variant (s : State) (k : Ticket) (p : Reply) : (s.complete k p).variant = s.variant := by
  rw [State.complete_form s k p]
@[simp] theorem State.complete_noReserves (s : State) (k : Ticket) (p : Reply) : (s.complete k p).noReserves = s.noReserves := by
  rw [State.complete_form s k p]
@[simp] theorem State.complete_md (s : State) (k : Ticket) (p : Reply) : (s.complete k p).md = s.md := by
  rw [State.complete_form s k p]
@[simp] theorem State.complete_work (s : State) (k : Ticket) (p : Reply) : (s.complete k p).work = s.work := by
  rw [State.complete_form s k p]
@[simp] theorem State.complete_tick (s : State) (k : Ticket) (p : Reply) : (s.complete k p).tick = s.tick := by
  rw [State.complete_form s k p]
@[simp] theorem State.complete_perStaged (s : State) (k : Ticket) (p : Reply) : (s.complete k p).perStaged = s.perStaged := by
  rw [State.complete_form s k p]
@[simp] theorem State.complete_ovrTile (s : State) (k : Ticket) (p : Reply) : (s.complete k p).ovrTile = s.ovrTile := by
  rw [State.complete_form s k p]
@[simp] theorem State.complete_ovrConsec (s : State) (k : Ticket) (p : Reply) : (s.complete k p).ovrConsec = s.ovrConsec := by
  rw [State.complete_form s k p]
@[simp] theorem State.complete_ovrValid (s : State) (k : Ticket) (p : Reply) : (s.complete k p).ovrValid = s.ovrValid := by
  rw [State.complete_form s k p]
@[simp] theorem State.complete_ovrTask (s : State) (k : Ticket) (p : Reply) : (s.complete k p).ovrTask = s.ovrTask := by
  rw [State.complete_form s k p]
@[simp] theorem State.complete_tiles (s : State) (k : Ticket) (p : Reply) : (s.complete k p).tiles = s.tiles := by
  rw [State.complete_form s k p]
@[simp] theorem State.complete_dies (s : State) (k : Ticket) (p : Reply) : (s.complete k p).dies = s.dies := by
  rw [State.complete_form s k p]
@[simp] theorem State.complete_persist (s : State) (k : Ticket) (p : Reply) : (s.complete k p).persist = s.persist := by
  rw [State.complete_form s k p]
@[simp] theorem State.complete_online (s : State) (k : Ticket) (p : Reply) : (s.complete k p).online = s.online := by
  rw [State.complete_form s k p]
@[simp] theorem State.complete_channels (s : State) (k : Ticket) (p : Reply) : (s.complete k p).channels = s.channels := by
  rw [State.complete_form s k p]
@[simp] theorem State.complete_refusedSends (s : State) (k : Ticket) (p : Reply) : (s.complete k p).refusedSends = s.refusedSends := by
  rw [State.complete_form s k p]
@[simp] theorem State.complete_trackDiscards (s : State) (k : Ticket) (p : Reply) : (s.complete k p).trackDiscards = s.trackDiscards := by
  rw [State.complete_form s k p]
@[simp] theorem State.complete_locks (s : State) (k : Ticket) (p : Reply) : (s.complete k p).locks = s.locks := by
  rw [State.complete_form s k p]
@[simp] theorem State.complete_pages (s : State) (k : Ticket) (p : Reply) : (s.complete k p).pages = s.pages := by
  rw [State.complete_form s k p]
@[simp] theorem State.complete_setup (s : State) (k : Ticket) (p : Reply) : (s.complete k p).setup = s.setup := by
  rw [State.complete_form s k p]
@[simp] theorem State.complete_setupTick (s : State) (k : Ticket) (p : Reply) : (s.complete k p).setupTick = s.setupTick := by
  rw [State.complete_form s k p]
@[simp] theorem State.complete_setupStart (s : State) (k : Ticket) (p : Reply) : (s.complete k p).setupStart = s.setupStart := by
  rw [State.complete_form s k p]
@[simp] theorem State.complete_latches (s : State) (k : Ticket) (p : Reply) : (s.complete k p).latches = s.latches := by
  rw [State.complete_form s k p]
@[simp] theorem State.complete_ignored (s : State) (k : Ticket) (p : Reply) : (s.complete k p).ignored = s.ignored := by
  rw [State.complete_form s k p]
@[simp] theorem State.complete_ringCreds (s : State) (k : Ticket) (p : Reply) : (s.complete k p).ringCreds = s.ringCreds := by
  rw [State.complete_form s k p]
@[simp] theorem State.complete_sessions (s : State) (k : Ticket) (p : Reply) : (s.complete k p).sessions = s.sessions := by
  rw [State.complete_form s k p]
@[simp] theorem State.complete_programCred (s : State) (k : Ticket) (p : Reply) : (s.complete k p).programCred = s.programCred := by
  rw [State.complete_form s k p]
@[simp] theorem State.complete_identity (s : State) (k : Ticket) (p : Reply) : (s.complete k p).identity = s.identity := by
  rw [State.complete_form s k p]
@[simp] theorem State.complete_firmware (s : State) (k : Ticket) (p : Reply) : (s.complete k p).firmware = s.firmware := by
  rw [State.complete_form s k p]
@[simp] theorem State.complete_debugOpen (s : State) (k : Ticket) (p : Reply) : (s.complete k p).debugOpen = s.debugOpen := by
  rw [State.complete_form s k p]
@[simp] theorem State.complete_clock (s : State) (k : Ticket) (p : Reply) : (s.complete k p).clock = s.clock := by
  rw [State.complete_form s k p]
@[simp] theorem State.complete_watchdog (s : State) (k : Ticket) (p : Reply) : (s.complete k p).watchdog = s.watchdog := by
  rw [State.complete_form s k p]
@[simp] theorem State.complete_power (s : State) (k : Ticket) (p : Reply) : (s.complete k p).power = s.power := by
  rw [State.complete_form s k p]
@[simp] theorem State.complete_hostLink (s : State) (k : Ticket) (p : Reply) : (s.complete k p).hostLink = s.hostLink := by
  rw [State.complete_form s k p]
@[simp] theorem State.complete_island (s : State) (k : Ticket) (p : Reply) : (s.complete k p).island = s.island := by
  rw [State.complete_form s k p]
@[simp] theorem State.complete_field (s : State) (k : Ticket) (p : Reply) : (s.complete k p).field = s.field := by
  rw [State.complete_form s k p]
@[simp] theorem State.complete_modulators (s : State) (k : Ticket) (p : Reply) : (s.complete k p).modulators = s.modulators := by
  rw [State.complete_form s k p]
@[simp] theorem State.complete_arch (s : State) (k : Ticket) (p : Reply) : (s.complete k p).arch = s.arch := by
  rw [State.complete_form s k p]
@[simp] theorem State.complete_links (s : State) (k : Ticket) (p : Reply) : (s.complete k p).links = s.links := by
  rw [State.complete_form s k p]
@[simp] theorem State.complete_stations (s : State) (k : Ticket) (p : Reply) : (s.complete k p).stations = s.stations := by
  rw [State.complete_form s k p]
@[simp] theorem State.complete_train (s : State) (k : Ticket) (p : Reply) : (s.complete k p).train = s.train := by
  rw [State.complete_form s k p]
@[simp] theorem State.complete_cans (s : State) (k : Ticket) (p : Reply) : (s.complete k p).cans = s.cans := by
  rw [State.complete_form s k p]
@[simp] theorem State.complete_serials (s : State) (k : Ticket) (p : Reply) : (s.complete k p).serials = s.serials := by
  rw [State.complete_form s k p]
@[simp] theorem State.complete_canRx (s : State) (k : Ticket) (p : Reply) : (s.complete k p).canRx = s.canRx := by
  rw [State.complete_form s k p]
@[simp] theorem State.complete_serialRx (s : State) (k : Ticket) (p : Reply) : (s.complete k p).serialRx = s.serialRx := by
  rw [State.complete_form s k p]

/-! ## completeAll: every other field stays -/

@[simp] theorem State.completeAll_pending (s : State) (p : Reply) (l : List Ticket) : (s.completeAll p l).pending = s.pending := by
  rw [State.completeAll_form s p l]
@[simp] theorem State.completeAll_lastRead (s : State) (p : Reply) (l : List Ticket) : (s.completeAll p l).lastRead = s.lastRead := by
  rw [State.completeAll_form s p l]
@[simp] theorem State.completeAll_fresh (s : State) (p : Reply) (l : List Ticket) : (s.completeAll p l).fresh = s.fresh := by
  rw [State.completeAll_form s p l]
@[simp] theorem State.completeAll_variant (s : State) (p : Reply) (l : List Ticket) : (s.completeAll p l).variant = s.variant := by
  rw [State.completeAll_form s p l]
@[simp] theorem State.completeAll_noReserves (s : State) (p : Reply) (l : List Ticket) : (s.completeAll p l).noReserves = s.noReserves := by
  rw [State.completeAll_form s p l]
@[simp] theorem State.completeAll_md (s : State) (p : Reply) (l : List Ticket) : (s.completeAll p l).md = s.md := by
  rw [State.completeAll_form s p l]
@[simp] theorem State.completeAll_work (s : State) (p : Reply) (l : List Ticket) : (s.completeAll p l).work = s.work := by
  rw [State.completeAll_form s p l]
@[simp] theorem State.completeAll_tick (s : State) (p : Reply) (l : List Ticket) : (s.completeAll p l).tick = s.tick := by
  rw [State.completeAll_form s p l]
@[simp] theorem State.completeAll_perStaged (s : State) (p : Reply) (l : List Ticket) : (s.completeAll p l).perStaged = s.perStaged := by
  rw [State.completeAll_form s p l]
@[simp] theorem State.completeAll_ovrTile (s : State) (p : Reply) (l : List Ticket) : (s.completeAll p l).ovrTile = s.ovrTile := by
  rw [State.completeAll_form s p l]
@[simp] theorem State.completeAll_ovrConsec (s : State) (p : Reply) (l : List Ticket) : (s.completeAll p l).ovrConsec = s.ovrConsec := by
  rw [State.completeAll_form s p l]
@[simp] theorem State.completeAll_ovrValid (s : State) (p : Reply) (l : List Ticket) : (s.completeAll p l).ovrValid = s.ovrValid := by
  rw [State.completeAll_form s p l]
@[simp] theorem State.completeAll_ovrTask (s : State) (p : Reply) (l : List Ticket) : (s.completeAll p l).ovrTask = s.ovrTask := by
  rw [State.completeAll_form s p l]
@[simp] theorem State.completeAll_tiles (s : State) (p : Reply) (l : List Ticket) : (s.completeAll p l).tiles = s.tiles := by
  rw [State.completeAll_form s p l]
@[simp] theorem State.completeAll_dies (s : State) (p : Reply) (l : List Ticket) : (s.completeAll p l).dies = s.dies := by
  rw [State.completeAll_form s p l]
@[simp] theorem State.completeAll_persist (s : State) (p : Reply) (l : List Ticket) : (s.completeAll p l).persist = s.persist := by
  rw [State.completeAll_form s p l]
@[simp] theorem State.completeAll_online (s : State) (p : Reply) (l : List Ticket) : (s.completeAll p l).online = s.online := by
  rw [State.completeAll_form s p l]
@[simp] theorem State.completeAll_channels (s : State) (p : Reply) (l : List Ticket) : (s.completeAll p l).channels = s.channels := by
  rw [State.completeAll_form s p l]
@[simp] theorem State.completeAll_refusedSends (s : State) (p : Reply) (l : List Ticket) : (s.completeAll p l).refusedSends = s.refusedSends := by
  rw [State.completeAll_form s p l]
@[simp] theorem State.completeAll_trackDiscards (s : State) (p : Reply) (l : List Ticket) : (s.completeAll p l).trackDiscards = s.trackDiscards := by
  rw [State.completeAll_form s p l]
@[simp] theorem State.completeAll_locks (s : State) (p : Reply) (l : List Ticket) : (s.completeAll p l).locks = s.locks := by
  rw [State.completeAll_form s p l]
@[simp] theorem State.completeAll_pages (s : State) (p : Reply) (l : List Ticket) : (s.completeAll p l).pages = s.pages := by
  rw [State.completeAll_form s p l]
@[simp] theorem State.completeAll_setup (s : State) (p : Reply) (l : List Ticket) : (s.completeAll p l).setup = s.setup := by
  rw [State.completeAll_form s p l]
@[simp] theorem State.completeAll_setupTick (s : State) (p : Reply) (l : List Ticket) : (s.completeAll p l).setupTick = s.setupTick := by
  rw [State.completeAll_form s p l]
@[simp] theorem State.completeAll_setupStart (s : State) (p : Reply) (l : List Ticket) : (s.completeAll p l).setupStart = s.setupStart := by
  rw [State.completeAll_form s p l]
@[simp] theorem State.completeAll_latches (s : State) (p : Reply) (l : List Ticket) : (s.completeAll p l).latches = s.latches := by
  rw [State.completeAll_form s p l]
@[simp] theorem State.completeAll_ignored (s : State) (p : Reply) (l : List Ticket) : (s.completeAll p l).ignored = s.ignored := by
  rw [State.completeAll_form s p l]
@[simp] theorem State.completeAll_ringCreds (s : State) (p : Reply) (l : List Ticket) : (s.completeAll p l).ringCreds = s.ringCreds := by
  rw [State.completeAll_form s p l]
@[simp] theorem State.completeAll_sessions (s : State) (p : Reply) (l : List Ticket) : (s.completeAll p l).sessions = s.sessions := by
  rw [State.completeAll_form s p l]
@[simp] theorem State.completeAll_programCred (s : State) (p : Reply) (l : List Ticket) : (s.completeAll p l).programCred = s.programCred := by
  rw [State.completeAll_form s p l]
@[simp] theorem State.completeAll_identity (s : State) (p : Reply) (l : List Ticket) : (s.completeAll p l).identity = s.identity := by
  rw [State.completeAll_form s p l]
@[simp] theorem State.completeAll_firmware (s : State) (p : Reply) (l : List Ticket) : (s.completeAll p l).firmware = s.firmware := by
  rw [State.completeAll_form s p l]
@[simp] theorem State.completeAll_debugOpen (s : State) (p : Reply) (l : List Ticket) : (s.completeAll p l).debugOpen = s.debugOpen := by
  rw [State.completeAll_form s p l]
@[simp] theorem State.completeAll_clock (s : State) (p : Reply) (l : List Ticket) : (s.completeAll p l).clock = s.clock := by
  rw [State.completeAll_form s p l]
@[simp] theorem State.completeAll_watchdog (s : State) (p : Reply) (l : List Ticket) : (s.completeAll p l).watchdog = s.watchdog := by
  rw [State.completeAll_form s p l]
@[simp] theorem State.completeAll_power (s : State) (p : Reply) (l : List Ticket) : (s.completeAll p l).power = s.power := by
  rw [State.completeAll_form s p l]
@[simp] theorem State.completeAll_hostLink (s : State) (p : Reply) (l : List Ticket) : (s.completeAll p l).hostLink = s.hostLink := by
  rw [State.completeAll_form s p l]
@[simp] theorem State.completeAll_island (s : State) (p : Reply) (l : List Ticket) : (s.completeAll p l).island = s.island := by
  rw [State.completeAll_form s p l]
@[simp] theorem State.completeAll_field (s : State) (p : Reply) (l : List Ticket) : (s.completeAll p l).field = s.field := by
  rw [State.completeAll_form s p l]
@[simp] theorem State.completeAll_modulators (s : State) (p : Reply) (l : List Ticket) : (s.completeAll p l).modulators = s.modulators := by
  rw [State.completeAll_form s p l]
@[simp] theorem State.completeAll_arch (s : State) (p : Reply) (l : List Ticket) : (s.completeAll p l).arch = s.arch := by
  rw [State.completeAll_form s p l]
@[simp] theorem State.completeAll_links (s : State) (p : Reply) (l : List Ticket) : (s.completeAll p l).links = s.links := by
  rw [State.completeAll_form s p l]
@[simp] theorem State.completeAll_stations (s : State) (p : Reply) (l : List Ticket) : (s.completeAll p l).stations = s.stations := by
  rw [State.completeAll_form s p l]
@[simp] theorem State.completeAll_train (s : State) (p : Reply) (l : List Ticket) : (s.completeAll p l).train = s.train := by
  rw [State.completeAll_form s p l]
@[simp] theorem State.completeAll_cans (s : State) (p : Reply) (l : List Ticket) : (s.completeAll p l).cans = s.cans := by
  rw [State.completeAll_form s p l]
@[simp] theorem State.completeAll_serials (s : State) (p : Reply) (l : List Ticket) : (s.completeAll p l).serials = s.serials := by
  rw [State.completeAll_form s p l]
@[simp] theorem State.completeAll_canRx (s : State) (p : Reply) (l : List Ticket) : (s.completeAll p l).canRx = s.canRx := by
  rw [State.completeAll_form s p l]
@[simp] theorem State.completeAll_serialRx (s : State) (p : Reply) (l : List Ticket) : (s.completeAll p l).serialRx = s.serialRx := by
  rw [State.completeAll_form s p l]

/-! ## countIgnored: every other field stays -/

@[simp] theorem State.countIgnored_pending (s : State) (m : Nat) : (s.countIgnored m).pending = s.pending := by
  rw [State.countIgnored_form s m]
@[simp] theorem State.countIgnored_lastRead (s : State) (m : Nat) : (s.countIgnored m).lastRead = s.lastRead := by
  rw [State.countIgnored_form s m]
@[simp] theorem State.countIgnored_fresh (s : State) (m : Nat) : (s.countIgnored m).fresh = s.fresh := by
  rw [State.countIgnored_form s m]
@[simp] theorem State.countIgnored_variant (s : State) (m : Nat) : (s.countIgnored m).variant = s.variant := by
  rw [State.countIgnored_form s m]
@[simp] theorem State.countIgnored_noReserves (s : State) (m : Nat) : (s.countIgnored m).noReserves = s.noReserves := by
  rw [State.countIgnored_form s m]
@[simp] theorem State.countIgnored_md (s : State) (m : Nat) : (s.countIgnored m).md = s.md := by
  rw [State.countIgnored_form s m]
@[simp] theorem State.countIgnored_work (s : State) (m : Nat) : (s.countIgnored m).work = s.work := by
  rw [State.countIgnored_form s m]
@[simp] theorem State.countIgnored_tick (s : State) (m : Nat) : (s.countIgnored m).tick = s.tick := by
  rw [State.countIgnored_form s m]
@[simp] theorem State.countIgnored_perStaged (s : State) (m : Nat) : (s.countIgnored m).perStaged = s.perStaged := by
  rw [State.countIgnored_form s m]
@[simp] theorem State.countIgnored_ovrTile (s : State) (m : Nat) : (s.countIgnored m).ovrTile = s.ovrTile := by
  rw [State.countIgnored_form s m]
@[simp] theorem State.countIgnored_ovrConsec (s : State) (m : Nat) : (s.countIgnored m).ovrConsec = s.ovrConsec := by
  rw [State.countIgnored_form s m]
@[simp] theorem State.countIgnored_ovrValid (s : State) (m : Nat) : (s.countIgnored m).ovrValid = s.ovrValid := by
  rw [State.countIgnored_form s m]
@[simp] theorem State.countIgnored_ovrTask (s : State) (m : Nat) : (s.countIgnored m).ovrTask = s.ovrTask := by
  rw [State.countIgnored_form s m]
@[simp] theorem State.countIgnored_tiles (s : State) (m : Nat) : (s.countIgnored m).tiles = s.tiles := by
  rw [State.countIgnored_form s m]
@[simp] theorem State.countIgnored_dies (s : State) (m : Nat) : (s.countIgnored m).dies = s.dies := by
  rw [State.countIgnored_form s m]
@[simp] theorem State.countIgnored_persist (s : State) (m : Nat) : (s.countIgnored m).persist = s.persist := by
  rw [State.countIgnored_form s m]
@[simp] theorem State.countIgnored_online (s : State) (m : Nat) : (s.countIgnored m).online = s.online := by
  rw [State.countIgnored_form s m]
@[simp] theorem State.countIgnored_rings (s : State) (m : Nat) : (s.countIgnored m).rings = s.rings := by
  rw [State.countIgnored_form s m]
@[simp] theorem State.countIgnored_channels (s : State) (m : Nat) : (s.countIgnored m).channels = s.channels := by
  rw [State.countIgnored_form s m]
@[simp] theorem State.countIgnored_refusedSends (s : State) (m : Nat) : (s.countIgnored m).refusedSends = s.refusedSends := by
  rw [State.countIgnored_form s m]
@[simp] theorem State.countIgnored_trackDiscards (s : State) (m : Nat) : (s.countIgnored m).trackDiscards = s.trackDiscards := by
  rw [State.countIgnored_form s m]
@[simp] theorem State.countIgnored_locks (s : State) (m : Nat) : (s.countIgnored m).locks = s.locks := by
  rw [State.countIgnored_form s m]
@[simp] theorem State.countIgnored_msix (s : State) (m : Nat) : (s.countIgnored m).msix = s.msix := by
  rw [State.countIgnored_form s m]
@[simp] theorem State.countIgnored_foremanEvents (s : State) (m : Nat) : (s.countIgnored m).foremanEvents = s.foremanEvents := by
  rw [State.countIgnored_form s m]
@[simp] theorem State.countIgnored_recorder (s : State) (m : Nat) : (s.countIgnored m).recorder = s.recorder := by
  rw [State.countIgnored_form s m]
@[simp] theorem State.countIgnored_pages (s : State) (m : Nat) : (s.countIgnored m).pages = s.pages := by
  rw [State.countIgnored_form s m]
@[simp] theorem State.countIgnored_setup (s : State) (m : Nat) : (s.countIgnored m).setup = s.setup := by
  rw [State.countIgnored_form s m]
@[simp] theorem State.countIgnored_setupTick (s : State) (m : Nat) : (s.countIgnored m).setupTick = s.setupTick := by
  rw [State.countIgnored_form s m]
@[simp] theorem State.countIgnored_setupStart (s : State) (m : Nat) : (s.countIgnored m).setupStart = s.setupStart := by
  rw [State.countIgnored_form s m]
@[simp] theorem State.countIgnored_latches (s : State) (m : Nat) : (s.countIgnored m).latches = s.latches := by
  rw [State.countIgnored_form s m]
@[simp] theorem State.countIgnored_ringCreds (s : State) (m : Nat) : (s.countIgnored m).ringCreds = s.ringCreds := by
  rw [State.countIgnored_form s m]
@[simp] theorem State.countIgnored_sessions (s : State) (m : Nat) : (s.countIgnored m).sessions = s.sessions := by
  rw [State.countIgnored_form s m]
@[simp] theorem State.countIgnored_sessionOut (s : State) (m : Nat) : (s.countIgnored m).sessionOut = s.sessionOut := by
  rw [State.countIgnored_form s m]
@[simp] theorem State.countIgnored_programCred (s : State) (m : Nat) : (s.countIgnored m).programCred = s.programCred := by
  rw [State.countIgnored_form s m]
@[simp] theorem State.countIgnored_identity (s : State) (m : Nat) : (s.countIgnored m).identity = s.identity := by
  rw [State.countIgnored_form s m]
@[simp] theorem State.countIgnored_firmware (s : State) (m : Nat) : (s.countIgnored m).firmware = s.firmware := by
  rw [State.countIgnored_form s m]
@[simp] theorem State.countIgnored_debugOpen (s : State) (m : Nat) : (s.countIgnored m).debugOpen = s.debugOpen := by
  rw [State.countIgnored_form s m]
@[simp] theorem State.countIgnored_clock (s : State) (m : Nat) : (s.countIgnored m).clock = s.clock := by
  rw [State.countIgnored_form s m]
@[simp] theorem State.countIgnored_watchdog (s : State) (m : Nat) : (s.countIgnored m).watchdog = s.watchdog := by
  rw [State.countIgnored_form s m]
@[simp] theorem State.countIgnored_power (s : State) (m : Nat) : (s.countIgnored m).power = s.power := by
  rw [State.countIgnored_form s m]
@[simp] theorem State.countIgnored_hostLink (s : State) (m : Nat) : (s.countIgnored m).hostLink = s.hostLink := by
  rw [State.countIgnored_form s m]
@[simp] theorem State.countIgnored_island (s : State) (m : Nat) : (s.countIgnored m).island = s.island := by
  rw [State.countIgnored_form s m]
@[simp] theorem State.countIgnored_field (s : State) (m : Nat) : (s.countIgnored m).field = s.field := by
  rw [State.countIgnored_form s m]
@[simp] theorem State.countIgnored_modulators (s : State) (m : Nat) : (s.countIgnored m).modulators = s.modulators := by
  rw [State.countIgnored_form s m]
@[simp] theorem State.countIgnored_arch (s : State) (m : Nat) : (s.countIgnored m).arch = s.arch := by
  rw [State.countIgnored_form s m]
@[simp] theorem State.countIgnored_links (s : State) (m : Nat) : (s.countIgnored m).links = s.links := by
  rw [State.countIgnored_form s m]
@[simp] theorem State.countIgnored_stations (s : State) (m : Nat) : (s.countIgnored m).stations = s.stations := by
  rw [State.countIgnored_form s m]
@[simp] theorem State.countIgnored_train (s : State) (m : Nat) : (s.countIgnored m).train = s.train := by
  rw [State.countIgnored_form s m]
@[simp] theorem State.countIgnored_cans (s : State) (m : Nat) : (s.countIgnored m).cans = s.cans := by
  rw [State.countIgnored_form s m]
@[simp] theorem State.countIgnored_serials (s : State) (m : Nat) : (s.countIgnored m).serials = s.serials := by
  rw [State.countIgnored_form s m]
@[simp] theorem State.countIgnored_canRx (s : State) (m : Nat) : (s.countIgnored m).canRx = s.canRx := by
  rw [State.countIgnored_form s m]
@[simp] theorem State.countIgnored_serialRx (s : State) (m : Nat) : (s.countIgnored m).serialRx = s.serialRx := by
  rw [State.countIgnored_form s m]

/-! ## Descriptors taken and run (R279, R464, R469) -/

/-- A descriptor taken changes its ring alone, carries the code named, and comes out as it stood. -/
theorem State.takeReq_form {s s1 : State} {r code : Nat} {q q1 : Req} (h : s.takeReq r code q = some (s1, q1)) :
    s1 = s.setRing r (s1.ring r) ∧ q.desc.code.toNat = code ∧ q1.desc = q.desc ∧ q1.origin = q.origin := by
  unfold State.takeReq at h
  split at h
  · cases h
  · rename_i hc
    have hc : q.desc.code.toNat = code := Classical.not_not.mp hc
    simp only at h
    split at h
    · split at h
      · cases h; exact ⟨by simp, hc, rfl, rfl⟩
      · cases h
    · split at h
      · split at h
        · cases h; exact ⟨by simp, hc, rfl, rfl⟩
        · cases h
      · cases h
    · split at h
      · split at h
        · rename_i he; cases h; exact ⟨by simp, hc, he.2, he.1⟩
        · cases h
      · cases h

/-- A descriptor that is not the engine's next changes nothing. -/
theorem runCommand_absent {s : State} {r code right : Nat} {q : Req} (h : s.takeReq r code q = none)
    (body : State → Req → Ticket → Cred → State) : runCommand r code right q s body = s := by
  simp [runCommand, h]

/-- A descriptor taken with its right runs its body (R464). -/
theorem runCommand_taken {s s1 : State} {r code right : Nat} {q q1 : Req} (h : Claims.Taken s r code right q s1 q1)
    (body : State → Req → Ticket → Cred → State) :
    runCommand r code right q s body = body s1 q1 (Claims.ticketOf r q) (s1.credOf r q.origin) := by
  obtain ⟨h1, h2⟩ := h
  simp only [runCommand, h1, Claims.ticketOf]
  rw [if_neg (Nat.not_lt.mpr h2)]

/-- A descriptor taken without its right completes DENIED, and is recorded (R464, R481). -/
theorem runCommand_denied {s s1 : State} {r code right : Nat} {q q1 : Req} (h : s.takeReq r code q = some (s1, q1))
    (hr : s1.rightOf r q.origin < right) (body : State → Req → Ticket → Cred → State) :
    runCommand r code right q s body =
      (s1.complete (Claims.ticketOf r q) { status := 1 }).credEvent 0o002_201 (originPlace r q.origin) 2
        (s1.credOf r q.origin) := by
  simp only [runCommand, h, Claims.ticketOf]
  rw [if_pos hr]; rfl

/-! ## Memories stay canonical -/

/-- The memories and the images hold the canonical form. -/
def Work.wf (w : Work) : Bool :=
  Tbl.wf {} w.mem && w.mem.all (fun e => Tbl.wf 0 e.2.code && Tbl.wf 0 e.2.data) &&
    Tbl.wf 0 w.mortar.input && Tbl.wf 0 w.mortar.out && Tbl.wf 0 w.mortar.exch &&
    Tbl.wf none w.mortar.outNew && Tbl.wf none w.mortar.exchNew

/-- At reset the memories are canonical: nothing is listed. -/
theorem State.reset_work_wf : State.reset.work.wf = true := by decide

/-- What is listed in a table written is what was listed, or what was written. -/
theorem Tbl.all_set {α : Type} [DecidableEq α] {d : α} {m : Tbl α} {i : Nat} {x : α} (p : α → Bool) (hx : p x = true)
    (hm : m.all (fun e => p e.2) = true) : (Tbl.set d m i x).all (fun e => p e.2) = true := by
  have he : ∀ (m : Tbl α), m.all (fun e => p e.2) = true → (m.erase i).all (fun e => p e.2) = true := by
    intro m h
    induction m with
    | nil => rfl
    | cons e rest ih =>
      simp only [List.all_cons, Bool.and_eq_true] at h
      simp only [Tbl.erase]; split
      · exact ih h.2
      · simp only [List.all_cons, Bool.and_eq_true]; exact ⟨h.1, ih h.2⟩
  have hi : ∀ (m : Tbl α), m.all (fun e => p e.2) = true → (m.insert i x).all (fun e => p e.2) = true := by
    intro m h
    induction m with
    | nil => simp [Tbl.insert, hx]
    | cons e rest ih =>
      have h' := h
      simp only [List.all_cons, Bool.and_eq_true] at h
      simp only [Tbl.insert]; split
      · simp only [List.all_cons, Bool.and_eq_true]; exact ⟨hx, h.1, h.2⟩
      · simp only [List.all_cons, Bool.and_eq_true]; exact ⟨h.1, ih h.2⟩
  unfold Tbl.set; split
  · exact he m hm
  · exact hi _ (he m hm)

/-- An entry read has what every listed entry and the default have. -/
theorem Tbl.get_of_all {α : Type} {d : α} {m : Tbl α} (p : α → Bool) (hd : p d = true)
    (hm : m.all (fun e => p e.2) = true) (i : Nat) : p (Tbl.get d m i) = true := by
  induction m with
  | nil => exact hd
  | cons e rest ih =>
    simp only [List.all_cons, Bool.and_eq_true] at hm
    simp only [Tbl.get]; split
    · exact hm.1
    · exact ih hm.2

/-- A tile's memories read canonical. -/
theorem Work.wf_mem {s : State} (h : s.work.wf = true) (t : Nat) :
    Tbl.wf 0 (s.mem t).code = true ∧ Tbl.wf 0 (s.mem t).data = true := by
  simp only [Work.wf, Bool.and_eq_true] at h
  have := Tbl.get_of_all (d := ({} : TileMem)) (fun e => Tbl.wf 0 e.code && Tbl.wf 0 e.data) (by decide) h.1.1.1.1.1.2 t
  simpa [State.mem] using this

/-- A tile's memories written canonical leave all of them canonical. -/
theorem Work.wf_setMem {s : State} (h : s.work.wf = true) (t : Nat) (x : TileMem) (hc : Tbl.wf 0 x.code = true)
    (hd : Tbl.wf 0 x.data = true) : (s.setMem t x).work.wf = true := by
  simp only [Work.wf, Bool.and_eq_true] at h ⊢
  obtain ⟨⟨⟨⟨⟨⟨h1, h2⟩, h3⟩, h4⟩, h5⟩, h6⟩, h7⟩ := h
  exact ⟨⟨⟨⟨⟨⟨Tbl.wf_set t x h1, Tbl.all_set (fun e : TileMem => Tbl.wf 0 e.code && Tbl.wf 0 e.data) (by rw [hc, hd]; rfl) h2⟩, h3⟩, h4⟩,
    h5⟩, h6⟩, h7⟩

/-- A store into a tile's data memory keeps every memory canonical. -/
theorem State.writeData_wf {s : State} (h : s.work.wf = true) (t a : Nat) (w : Word) : (s.writeData t a w).work.wf = true :=
  Work.wf_setMem h t _ (Work.wf_mem h t).1 (Tbl.wf_set a w (Work.wf_mem h t).2)

/-- A write into a tile's code memory keeps every memory canonical. -/
theorem State.writeCode_wf {s : State} (h : s.work.wf = true) (t a : Nat) (w : Word) : (s.writeCode t a w).work.wf = true :=
  Work.wf_setMem h t _ (Tbl.wf_set a w (Work.wf_mem h t).1) (Work.wf_mem h t).2

/-- A sample into the input image keeps every memory canonical. -/
theorem State.writeInput_wf {s : State} (h : s.work.wf = true) (i : Nat) (w : Word) : (s.writeInput i w).work.wf = true := by
  simp only [Work.wf, Bool.and_eq_true] at h
  obtain ⟨⟨⟨⟨⟨⟨h1, h2⟩, h3⟩, h4⟩, h5⟩, h6⟩, h7⟩ := h
  simp only [State.writeInput, State.dirty, State.setMortar, Work.wf, Bool.and_eq_true]
  exact ⟨⟨⟨⟨⟨⟨h1, h2⟩, Tbl.wf_set i w h3⟩, h4⟩, h5⟩, h6⟩, h7⟩

/-- A commit keeps every memory canonical. -/
theorem State.commitWord_wf {s : State} (h : s.work.wf = true) (area i : Nat) (w : Word) :
    (s.commitWord area i w).work.wf = true := by
  have h0 := h
  simp only [Work.wf, Bool.and_eq_true] at h
  obtain ⟨⟨⟨⟨⟨⟨h1, h2⟩, h3⟩, h4⟩, h5⟩, h6⟩, h7⟩ := h
  unfold State.commitWord
  simp only []
  split
  · simp only [State.dirty, State.setMortar, Work.wf, Bool.and_eq_true]
    exact ⟨⟨⟨⟨⟨⟨h1, h2⟩, h3⟩, h4⟩, h5⟩, Tbl.wf_set i _ h6⟩, h7⟩
  · split
    · simp only [State.dirty, State.setMortar, Work.wf, Bool.and_eq_true]
      exact ⟨⟨⟨⟨⟨⟨h1, h2⟩, h3⟩, h4⟩, h5⟩, h6⟩, Tbl.wf_set i _ h7⟩
    · exact h0

/-- Commits folded into an image keep it canonical. -/
theorem foldCommits_wf {base : Tbl Word} (h : Tbl.wf 0 base = true) (l : Tbl (Option Word)) :
    Tbl.wf 0 (foldCommits base l) = true := by
  induction l generalizing base with
  | nil => exact h
  | cons e rest ih =>
    obtain ⟨i, x⟩ := e
    cases x with
    | none => exact ih h
    | some w => exact ih (Tbl.wf_set i w h)

end Sys2Proof.Machine
end

