-- ==== Sys2Proof/Laws/Tile.lean ====
section
/-!
SUPPORT. What one retire step does, said once: on a tile that is ready, an instruction that is no REP target and raises no trap
gives the state `After`.
-/

namespace Sys2Proof.Machine

open Sys2Proof.Claims

/-! ## Lengths by the first word (R105) -/

theorem append_toNat_div {m n : Nat} (x : BitVec m) (y : BitVec n) : (x ++ y).toNat / 2 ^ n = x.toNat := by
  rw [BitVec.toNat_append, ← Nat.shiftLeft_add_eq_or_of_lt y.isLt, Nat.shiftLeft_eq, Nat.mul_comm,
    Nat.mul_add_div (Nat.two_pow_pos n), Nat.div_eq_of_lt y.isLt, Nat.add_zero]

theorem op_header (op : Nat) (a b : Reg) (c : BitVec 6) : (header op a b c).toNat / 2 ^ 12 = op % 64 := by
  have e : (2 : Nat) ^ 12 = 2 ^ 6 * 2 ^ 3 * 2 ^ 3 := by decide
  rw [e, ← Nat.div_div_eq_div_mul, ← Nat.div_div_eq_div_mul]
  unfold header
  rw [append_toNat_div, append_toNat_div, append_toNat_div]; simp

theorem lengthOf_header (op : Nat) (a b : Reg) (c : BitVec 6) :
    lengthOf (header op a b c) = if 48 ≤ op % 64 then 2 else 1 := by
  simp only [lengthOf, bitsOf, op_header]
  simp
theorem lengthOf_brWord (cc : BitVec 4) (off : BitVec 9) : lengthOf (brWord cc off) = 1 := by
  have e : (2 : Nat) ^ 12 = 2 ^ 9 * 2 ^ 3 := by decide
  have h : ((0b01100#5 ++ cc) ++ off).toNat / 2 ^ 12 = (0b01100#5 ++ cc).toNat / 2 ^ 3 := by
    rw [e, ← Nat.div_div_eq_div_mul, append_toNat_div]
  have k : ∀ cc : BitVec 4, ¬ 48 ≤ (0b01100#5 ++ cc).toNat / 2 ^ 3 % 64 := by decide
  simp only [lengthOf, bitsOf, brWord, h]
  simpa using k cc

theorem lengthOf_offWord (op : Nat) (off : BitVec 12) : lengthOf (offWord op off) = if 48 ≤ op % 64 then 2 else 1 := by
  have h : (BitVec.ofNat 6 op ++ off).toNat / 2 ^ 12 = op % 64 := by rw [append_toNat_div]; simp
  simp only [lengthOf, bitsOf, offWord, h]
  simp

theorem lengthOf_nperm (hi : BitVec 2) (a b : Reg) (lo : BitVec 6) :
    lengthOf (((0b1001#4 ++ hi) ++ a ++ b ++ lo : BitVec 18)) = 1 := by
  have e : (2 : Nat) ^ 12 = 2 ^ 6 * 2 ^ 3 * 2 ^ 3 := by decide
  have h : ((0b1001#4 ++ hi) ++ a ++ b ++ lo : BitVec 18).toNat / 2 ^ 12 = (0b1001#4 ++ hi).toNat := by
    rw [e, ← Nat.div_div_eq_div_mul, ← Nat.div_div_eq_div_mul, append_toNat_div, append_toNat_div, append_toNat_div]
  have k : ∀ hi : BitVec 2, ¬ 48 ≤ (0b1001#4 ++ hi).toNat % 64 := by decide
  simp only [lengthOf, bitsOf, h]
  simpa using k hi

/-! ## The retire step -/

theorem settle_of_notDue {s : State} {t : Nat} (h : (s.tile t).closeDue = false) : s.settle t = s := by
  simp [State.settle, h]

theorem readPlaces_clear {s : State} (h : s.upsets = []) (t : Nat) (l : List MemPlace) : s.readPlaces t l = (s, true) := by
  simp [State.readPlaces, h]

theorem applyStores_tile (t u : Nat) (l : List (Addr × Word)) (s : State) : (s.applyStores t l).tile u = s.tile u := by
  induction l generalizing s with
  | nil => rfl
  | cons e l ih => obtain ⟨a, w⟩ := e; simp only [State.applyStores, ih]; rfl

theorem drain_activation (s : State) (t n : Nat) : ((s.drain t n).tile t).activation = (s.tile t).activation := by
  simp [State.drain, applyStores_tile]

theorem applyStores_tileCount (t : Nat) (l : List (Addr × Word)) (s : State) :
    (s.applyStores t l).tileCount = s.tileCount := by
  induction l generalizing s with
  | nil => rfl
  | cons e l ih => obtain ⟨a, w⟩ := e; simp only [State.applyStores, ih]; rfl

theorem drain_tileCount (s : State) (t n : Nat) : (s.drain t n).tileCount = s.tileCount := by
  simp only [State.drain, applyStores_tileCount]; rfl

theorem applyStores_upsets (t : Nat) (l : List (Addr × Word)) (s : State) : (s.applyStores t l).upsets = s.upsets := by
  induction l generalizing s with
  | nil => rfl
  | cons e l ih => obtain ⟨a, w⟩ := e; simp only [State.applyStores, ih]; rfl

theorem drain_upsets (s : State) (t n : Nat) : (s.drain t n).upsets = s.upsets := by
  simp only [State.drain, applyStores_upsets]; rfl

/-- The one spec lemma of a retire step: a tile that runs takes the step of its instruction, the same on both cores. -/
theorem runInstr_runs {s : State} {t : Nat} (h : Runs s t) (w w2 : Word) (body : State → Tile → Cpu → Ret) :
    runInstr t w w2 body s = Stays s t (stepRet w w2 (s.tile t).cpu (body s (s.tile t))) := by
  obtain ⟨h1, h2, h3, h4, h5⟩ := h
  unfold runInstr
  rw [if_neg (Nat.not_le.mpr h1), settle_of_notDue h2]
  simp only [h3, Bool.not_true, Bool.false_eq_true, ↓reduceIte, readPlaces_clear h4, h5]
  rfl

/-- A tile that is ready takes the step of its instruction outside a REP. -/
theorem runInstr_plain {s : State} {t : Nat} (h : Ready s t) (w w2 : Word) (body : State → Tile → Cpu → Ret) :
    runInstr t w w2 body s = Stays s t (stepPlain w w2 (s.tile t).cpu (body s (s.tile t))) := by
  rw [runInstr_runs h.1]; simp [stepRet, h.2]

/-- A body that raises no trap: the PC moves past the instruction unless more steps follow. -/
theorem runInstr_step {s : State} {t : Nat} (h : Ready s t) (w w2 : Word) (body : State → Tile → Cpu → Ret)
    (ht : (body s (s.tile t) (s.tile t).cpu).trap = none) :
    runInstr t w w2 body s =
      Stays s t { body s (s.tile t) (s.tile t).cpu with cpu := advancePc w (body s (s.tile t) (s.tile t).cpu) } := by
  rw [runInstr_plain h]; simp [stepPlain, ht]

/-- A body that raises a trap. -/
theorem runInstr_trap {s : State} {t : Nat} (h : Ready s t) (w w2 : Word) (body : State → Tile → Cpu → Ret) {k : Nat × Nat}
    (ht : (body s (s.tile t) (s.tile t).cpu).trap = some k) :
    runInstr t w w2 body s = Stays s t
      ((resolveTrap (s.tile t).cpu w w2 (body s (s.tile t) (s.tile t).cpu)).jumped) := by
  rw [runInstr_plain h]; simp [stepPlain, ht]

/-- An instruction done in this step: `w` is its first word, `len` its length. -/
theorem runInstr_ready {s : State} {t : Nat} (h : Ready s t) (w w2 : Word) (body : State → Tile → Cpu → Ret) (len : Nat)
    (hlen : lengthOf w = len) (ht : (body s (s.tile t) (s.tile t).cpu).trap = none)
    (hh : (body s (s.tile t) (s.tile t).cpu).hold = false) :
    runInstr t w w2 body s = After s t len (body s (s.tile t) (s.tile t).cpu) := by
  rw [runInstr_step h w w2 body ht]
  subst hlen
  simp [After, advancePc, hh]

/-- The same for an instruction on the core state alone. -/
theorem runCpu_ready {s : State} {t : Nat} (h : Ready s t) (w w2 : Word) (body : Cpu → Ret) (len : Nat)
    (hlen : lengthOf w = len) (ht : (body (s.tile t).cpu).trap = none) (hh : (body (s.tile t).cpu).hold = false) :
    runCpu t w w2 body s = After s t len (body (s.tile t).cpu) :=
  runInstr_ready h w w2 (fun _ _ c => body c) len hlen ht hh

/-! ## Instructions of several retire steps (R147) -/

/-- A retire step leaves the core state its result names, with its cycles off the budget. -/
theorem drain_cpu (s : State) (t n : Nat) : ((s.drain t n).tile t).cpu = (s.tile t).cpu := by
  simp [State.drain, applyStores_tile]

theorem drain_tile_eq (s : State) (t n : Nat) :
    (s.drain t n).tile t = { s.tile t with draining := ((s.tile t).draining).take ((s.tile t).draining.length - n) } := by
  simp [State.drain, applyStores_tile]

theorem stays_tile (s : State) (t : Nat) (r : Ret) :
    (Stays s t r).tile t = { (s.tile t).retire r r with
      draining := ((s.tile t).draining).take ((s.tile t).draining.length - 8 * r.cycles) } := by
  have := drain_tile_eq (s.setTile t ((s.tile t).retire r r)) t (8 * r.cycles)
  rw [State.tile_setTile] at this
  exact this

theorem runSteps_succ (t : Nat) (w w2 : Word) (mid : Cpu → Bool) (body : State → Tile → Cpu → Ret) (n : Nat) (s : State) :
    runSteps t w w2 mid body (n + 1) s =
      if ((runInstr t w w2 body s).tile t).goesOn mid then runSteps t w w2 mid body n (runInstr t w w2 body s)
      else runInstr t w w2 body s := rfl

theorem stays_cpu (s : State) (t : Nat) (r : Ret) :
    ((Stays s t r).tile t).cpu = { r.cpu with budget := r.cpu.budget - r.cycles } := by rw [stays_tile]; rfl

theorem stays_windowCycles (s : State) (t : Nat) (r : Ret) :
    ((Stays s t r).tile t).windowCycles = (s.tile t).windowCycles + r.cycles := by rw [stays_tile]; rfl

/-- A tile that goes on has not filled its window by time. -/
theorem goesOn_windowCycles {s : State} {t : Nat} {r : Ret} {mid : Cpu → Bool}
    (h : ((Stays s t r).tile t).goesOn mid = true) : (s.tile t).windowCycles + r.cycles < Config.windowCycles := by
  have hx := stays_tile s t r
  simp only [Tile.goesOn, Bool.and_eq_true, Bool.not_eq_true'] at h
  have hc := h.2
  rw [hx] at hc
  simp only [Tile.retire, closes, Bool.or_eq_false_iff, decide_eq_false_iff_not, Nat.not_le] at hc
  exact hc.1.1.1

/-- A tile that goes on after one step is ready again. -/
theorem ready_stays {s : State} {t : Nat} (h : Ready s t) (r : Ret) (hr : r.cpu.rep = .none) {mid : Cpu → Bool}
    (hg : ((Stays s t r).tile t).goesOn mid = true) : Ready (Stays s t r) t := by
  obtain ⟨⟨h1, h2, h3, h4, h5⟩, h6⟩ := h
  have hx := stays_tile s t r
  simp only [Tile.goesOn, Bool.and_eq_true, Bool.not_eq_true'] at hg
  refine ⟨⟨?_, hg.2, hg.1.2, ?_, ?_⟩, ?_⟩
  · have : (Stays s t r).tileCount = s.tileCount := drain_tileCount _ _ _
    omega
  · have : (Stays s t r).upsets = s.upsets := drain_upsets _ _ _
    rw [this, h4]
  · rw [hx]; rfl
  · rw [hx]; exact hr

/-- An instruction of several steps whose last one this is. -/
theorem runSteps_ready {s : State} {t : Nat} (h : Ready s t) (w w2 : Word) (mid : Cpu → Bool)
    (body : State → Tile → Cpu → Ret) (len n : Nat)
    (hlen : lengthOf w = len) (ht : (body s (s.tile t) (s.tile t).cpu).trap = none)
    (hh : (body s (s.tile t) (s.tile t).cpu).hold = false)
    (hm : mid ((After s t len (body s (s.tile t) (s.tile t).cpu)).tile t).cpu = false) :
    runSteps t w w2 mid body (n + 1) s = After s t len (body s (s.tile t) (s.tile t).cpu) := by
  rw [runSteps_succ, runInstr_ready h w w2 body len hlen ht hh]
  simp [Tile.goesOn, hm]

/-- A step of an instruction after which more follow. -/
theorem runSteps_holds {s : State} {t : Nat} (h : Ready s t) (w w2 : Word) (mid : Cpu → Bool)
    (body : State → Tile → Cpu → Ret) (n : Nat)
    (ht : (body s (s.tile t) (s.tile t).cpu).trap = none) (hh : (body s (s.tile t) (s.tile t).cpu).hold = true) :
    runSteps t w w2 mid body (n + 1) s =
      if ((Stays s t (body s (s.tile t) (s.tile t).cpu)).tile t).goesOn mid then
        runSteps t w w2 mid body n (Stays s t (body s (s.tile t) (s.tile t).cpu))
      else Stays s t (body s (s.tile t) (s.tile t).cpu) := by
  have e : runInstr t w w2 body s = Stays s t (body s (s.tile t) (s.tile t).cpu) := by
    rw [runInstr_step h w w2 body ht]; simp only [advancePc, hh]; rw [← hh]; simp
  rw [runSteps_succ, e]

/-- A body is steady at tile `t` when a step after which the instruction goes on takes a cycle or more and leaves the core
between instructions, and the instruction goes on only after such a step. -/
def Steady (t : Nat) (w w2 : Word) (mid : Cpu → Bool) (body : State → Tile → Cpu → Ret) : Prop :=
  ∀ s, Ready s t → let r := body s (s.tile t) (s.tile t).cpu
    mid ((runInstr t w w2 body s).tile t).cpu = true →
      r.trap = none ∧ r.hold = true ∧ 1 ≤ r.cycles ∧ r.cpu.rep = .none

/-- The number of steps allowed does not matter once it covers the cycles left in the window. -/
theorem runSteps_enough {t : Nat} {w w2 : Word} {mid : Cpu → Bool} {body : State → Tile → Cpu → Ret}
    (hb : Steady t w w2 mid body) (k : Nat) :
    ∀ (n m : Nat) (s : State), Ready s t → Config.windowCycles ≤ n + (s.tile t).windowCycles →
      Config.windowCycles ≤ m + (s.tile t).windowCycles → n ≤ k →
      runSteps t w w2 mid body (n + 1) s = runSteps t w w2 mid body (m + 1) s := by
  induction k with
  | zero =>
    intro n m s h hn hm hk
    rw [runSteps_succ, runSteps_succ]
    by_cases hg : ((runInstr t w w2 body s).tile t).goesOn mid = true
    · exfalso
      have hmid : mid ((runInstr t w w2 body s).tile t).cpu = true := by
        simp only [Tile.goesOn, Bool.and_eq_true] at hg; exact hg.1.1
      obtain ⟨ht, hh, hc, hr⟩ := hb s h hmid
      have e : runInstr t w w2 body s = Stays s t (body s (s.tile t) (s.tile t).cpu) := by
        rw [runInstr_step h w w2 body ht]; simp only [advancePc, hh]; rw [← hh]; simp
      rw [e] at hg
      have := goesOn_windowCycles hg
      omega
    · simp [hg]
  | succ k ih =>
    intro n m s h hn hm hk
    rw [runSteps_succ, runSteps_succ]
    by_cases hg : ((runInstr t w w2 body s).tile t).goesOn mid = true
    · have hmid : mid ((runInstr t w w2 body s).tile t).cpu = true := by
        simp only [Tile.goesOn, Bool.and_eq_true] at hg; exact hg.1.1
      obtain ⟨ht, hh, hc, hr⟩ := hb s h hmid
      have e : runInstr t w w2 body s = Stays s t (body s (s.tile t) (s.tile t).cpu) := by
        rw [runInstr_step h w w2 body ht]; simp only [advancePc, hh]; rw [← hh]; simp
      rw [e] at hg ⊢
      have hw := goesOn_windowCycles hg
      have hs := stays_windowCycles s t (body s (s.tile t) (s.tile t).cpu)
      simp only [hg, ↓reduceIte]
      obtain ⟨n, rfl⟩ : ∃ n', n = n' + 1 := ⟨n - 1, by omega⟩
      obtain ⟨m, rfl⟩ : ∃ m', m = m' + 1 := ⟨m - 1, by omega⟩
      exact ih n m _ (ready_stays h _ hr hg) (by omega) (by omega) (by omega)
    · simp [hg]

/-- The command goes on with the instruction from the boundary it has reached. -/
theorem runSteps_goesOn {t : Nat} {w w2 : Word} {mid : Cpu → Bool} {body : State → Tile → Cpu → Ret}
    (hb : Steady t w w2 mid body) {s : State} (h : Ready s t)
    (ht : (body s (s.tile t) (s.tile t).cpu).trap = none) (hh : (body s (s.tile t) (s.tile t).cpu).hold = true) :
    runSteps t w w2 mid body (Config.windowCycles + 1) s =
      if ((Stays s t (body s (s.tile t) (s.tile t).cpu)).tile t).goesOn mid then
        runSteps t w w2 mid body (Config.windowCycles + 1) (Stays s t (body s (s.tile t) (s.tile t).cpu))
      else Stays s t (body s (s.tile t) (s.tile t).cpu) := by
  rw [runSteps_holds h w w2 mid body _ ht hh]
  by_cases hg : ((Stays s t (body s (s.tile t) (s.tile t).cpu)).tile t).goesOn mid = true
  · have e : runInstr t w w2 body s = Stays s t (body s (s.tile t) (s.tile t).cpu) := by
      rw [runInstr_step h w w2 body ht]; simp only [advancePc, hh]; rw [← hh]; simp
    have hmid : mid ((runInstr t w w2 body s).tile t).cpu = true := by
      rw [e]; simp only [Tile.goesOn, Bool.and_eq_true] at hg; exact hg.1.1
    obtain ⟨_, _, hc, hr⟩ := hb s h hmid
    have hw := stays_windowCycles s t (body s (s.tile t) (s.tile t).cpu)
    have hk : Config.windowCycles = 2047 + 1 := rfl
    simp only [hg, ↓reduceIte]
    rw [hk]
    exact runSteps_enough hb 2047 2047 2048 _ (ready_stays h _ hr hg) (by rw [hk]; omega) (by rw [hk]; omega) (by omega)
  · simp [hg]

end Sys2Proof.Machine
end

