-- ==== Sys2Proof/Laws/Steps.lean ====
section
/-!
SUPPORT. The instructions of several retire steps (R147): what one step of END, SEND and SOLVE is, that each takes a cycle or more
while more follow, and so that the command goes on step by step until it is done, its window is to close or the tile stops.
-/

namespace Sys2Proof.Machine

open Sys2Proof.Claims

/-- The core state after a step without a trap. -/
theorem runInstr_cpu {s : State} {t : Nat} (h : Ready s t) (w w2 : Word) (body : State → Tile → Cpu → Ret)
    (ht : (body s (s.tile t) (s.tile t).cpu).trap = none) :
    ((runInstr t w w2 body s).tile t).cpu = { advancePc w (body s (s.tile t) (s.tile t).cpu) with
      budget := (advancePc w (body s (s.tile t) (s.tile t).cpu)).budget - (body s (s.tile t) (s.tile t).cpu).cycles } := by
  rw [runInstr_step h w w2 body ht, stays_cpu]

/-! ## A command of several steps, step by step -/

/-- A step after which more follow: the command goes on from there. -/
theorem command_holds {t : Nat} {w w2 : Word} {mid : Cpu → Bool} {body : State → Tile → Cpu → Ret}
    (hb : Steady t w w2 mid body) {s : State} (h : Ready s t) (f : State → Out)
    (hf : ∀ s, f s = .next (runSteps t w w2 mid body (Config.windowCycles + 1) s)) (r : Ret)
    (e : body s (s.tile t) (s.tile t).cpu = r) (ht : r.trap = none) (hh : r.hold = true) :
    f s = Continues mid f t (Stays s t r) := by
  subst e
  unfold Continues
  rw [hf, runSteps_goesOn hb h ht hh]
  split <;> simp [*]

/-- The last step of an instruction of `len` words. -/
theorem command_done {t : Nat} {w w2 : Word} {mid : Cpu → Bool} {body : State → Tile → Cpu → Ret}
    (hb : Steady t w w2 mid body) {s : State} (h : Ready s t) (f : State → Out)
    (hf : ∀ s, f s = .next (runSteps t w w2 mid body (Config.windowCycles + 1) s)) (r : Ret)
    (e : body s (s.tile t) (s.tile t).cpu = r) (len : Nat) (hl : lengthOf w = len) (ht : r.trap = none) (hh : r.hold = false) :
    f s = .next (After s t len r) := by
  subst e
  rw [hf, runSteps_ready h w w2 mid body len _ hl ht hh]
  have := hb s h
  rw [runInstr_ready h w w2 body len hl ht hh] at this
  cases hm : mid ((After s t len (body s (s.tile t) (s.tile t).cpu)).tile t).cpu
  · rfl
  · have := (this hm).2.1; simp [hh] at this

/-- A step that raises a trap ends the command. -/
theorem command_traps {t : Nat} {w w2 : Word} {mid : Cpu → Bool} {body : State → Tile → Cpu → Ret}
    (hb : Steady t w w2 mid body) {s : State} (h : Ready s t) {k : Nat × Nat}
    (ht : (body s (s.tile t) (s.tile t).cpu).trap = some k) (n : Nat) :
    runSteps t w w2 mid body (n + 1) s = Stays s t
      ((resolveTrap (s.tile t).cpu w w2 (body s (s.tile t) (s.tile t).cpu)).jumped) := by
  have e := runInstr_trap h w w2 body ht
  rw [runSteps_succ]
  cases hg : ((runInstr t w w2 body s).tile t).goesOn mid
  · exact e
  · simp only [Tile.goesOn, Bool.and_eq_true] at hg
    have := (hb s h hg.1.1).1
    rw [ht] at this; cases this

/-! ## END and SEND -/

theorem endRet_trap (m : Nat) (x : Tile) (c : Cpu) : (endRet m x c).trap = none := by
  unfold endRet; split <;> (try split) <;> rfl

theorem sendRet_trap (ch : Nat) (a : Addr) (ws : List Word) (c : Cpu) : (sendRet ch a ws c).trap = none := by
  unfold sendRet; split <;> rfl

theorem steady_end (t : Nat) : Steady t 0o000_001 0 Cpu.asking (fun s x c =>
    endRet (s.writeSetWords ((x.activation.map fun a => a.entry.task).getD 0)) x c) := by
  intro s h
  generalize hm : (s.writeSetWords (((s.tile t).activation.map fun a => a.entry.task).getD 0)) = m
  intro r hmid
  have ht : (endRet (s.writeSetWords (((s.tile t).activation.map fun a => a.entry.task).getD 0)) (s.tile t)
      (s.tile t).cpu).trap = none := endRet_trap _ _ _
  rw [runInstr_cpu h _ _ _ ht] at hmid
  refine ⟨ht, ?_⟩
  have hrep := h.2
  have hr : r = endRet m (s.tile t) (s.tile t).cpu := by rw [← hm]
  rw [show (endRet (s.writeSetWords (((s.tile t).activation.map fun a => a.entry.task).getD 0)) (s.tile t) (s.tile t).cpu) = r
    from rfl] at hmid
  rw [hr] at hmid ⊢
  clear hr r
  revert hmid
  unfold endRet
  split <;> (try split) <;> simp [Cpu.asking, advancePc, *]

theorem steady_send (t : Nat) (w addr : Word) (b : Reg) : Steady t w addr Cpu.asking (fun s x u =>
    let ch := min 31 (u.reg b).toNat
    sendRet ch (addrOf addr) (x.loads (s.mem t) (addrOf addr) (s.blockWords ch)) u) := by
  intro s h r hmid
  have ht : r.trap = none := sendRet_trap _ _ _ _
  rw [runInstr_cpu h _ _ _ ht] at hmid
  refine ⟨ht, ?_⟩
  have hrep := h.2
  change (Cpu.asking { advancePc w r with budget := (advancePc w r).budget - r.cycles } : Bool) = true at hmid
  revert hmid
  simp only [r]
  unfold sendRet
  split <;> simp [Cpu.asking, advancePc, hrep]

/-! ## SOLVE -/

/-- What one retire step of a SOLVE is: no effect and no branch; while more follow, only the solver changes; the last one hands
over g0, g1 and S; a trap gives the block up. -/
structure SolveShape (u : Cpu) (r : Ret) : Prop where
  effect : r.effect = none
  jump : r.jump = none
  held : r.hold = true → r.trap = none ∧ r.cpu = { u with solver := r.cpu.solver } ∧ r.cpu.solver.next ≠ none ∧ 1 ≤ r.cycles
  done : r.trap = none → r.hold = false → r.cpu.solver.next = none ∧
    r.cpu.reg 0 = bit r.cpu.solver.rlo0 + 2 * bit r.cpu.solver.rlo1 ∧ r.cpu.reg 1 = r.cpu.solver.wa ∧
    (∀ i, i ≠ 0 → i ≠ 1 → r.cpu.reg i = u.reg i) ∧ r.cpu.fl = { u.fl with s := u.fl.s || r.cpu.solver.sat } ∧ r.cpu.ct = u.ct
  trap : ∀ x, r.trap = some x → r.hold = false ∧ x.1 = 2 ∧ r.cpu.solver.next = none ∧ (x.2 ≠ 7 → r.stores = [])

theorem illegalCourse_shape (u u0 : Cpu) (cause n a : Nat) (st : List (Addr × Word)) (rd : List MemRead)
    (h : cause ≠ 7 → st = []) : SolveShape u0 { illegalCourse u cause n a with stores := st, reads := rd } :=
  ⟨rfl, rfl, by simp [illegalCourse], by simp [illegalCourse], by
    intro x hx; simp [illegalCourse] at hx; subst hx; exact ⟨rfl, rfl, rfl, h⟩⟩

/-- The words a step reads do not change its shape. -/
theorem SolveShape.withReads {u : Cpu} {r : Ret} (h : SolveShape u r) (l : List MemRead) :
    SolveShape u { r with reads := l } := ⟨h.effect, h.jump, h.held, h.done, h.trap⟩

theorem Cpu.reg_setReg (c : Cpu) (a b : Reg) (w : Word) : (c.setReg a w).reg b = if b = a then w else c.reg b := by
  by_cases h : b = a
  · subst h; simp [Cpu.reg, Cpu.setReg]
  · have : b.toNat ≠ a.toNat := fun e => h (BitVec.eq_of_toNat_eq e)
    simp [Cpu.reg, Cpu.setReg, h, Tbl.get_set, this]

theorem handOff_shape (u : Cpu) (v : Solver) (r : Ret) (hr : r.cpu = { u with solver := v })
    (h1 : r.effect = none) (h2 : r.jump = none) (h3 : r.hold = false) (h4 : r.trap = none) : SolveShape u (handOff r) := by
  refine ⟨h1, h2, by intro h; simp [handOff, h3] at h, ?_, by intro x hx; simp [handOff, h4] at hx⟩
  intro _ _
  have e : ∀ i, (handOff r).cpu.reg i =
      ((r.cpu.setReg 0 (word (flagNat v.rlo0 + 2 * flagNat v.rlo1))).setReg 1 v.wa).reg i := by
    intro i; simp only [handOff, hr]; rfl
  refine ⟨rfl, ?_, ?_, ?_, ?_, ?_⟩
  · rw [e, Cpu.reg_setReg, Cpu.reg_setReg]; simp [handOff, hr]
    cases v.rlo0 <;> cases v.rlo1 <;> decide
  · rw [e, Cpu.reg_setReg]; simp [handOff, hr]
  · intro i h0 h1
    rw [e, Cpu.reg_setReg, Cpu.reg_setReg, if_neg h1, if_neg h0, hr]; rfl
  · simp only [handOff, hr]; rfl
  · simp only [handOff, hr]; rfl

/-- The slots of a course add no cycle less than the course has. -/
theorem runSlots_cycles (env : BlockEnv) (slot : Nat → Word) (slots : Nat) (a : Solver) :
    ∀ (fuel last i : Nat) (b b' : Bench) (i' : Nat),
      runSlots env slot slots a fuel last i b = .ok (b', i') → b.cycles ≤ b'.cycles := by
  intro fuel
  induction fuel with
  | zero => intro last i b b' i' h; simp [runSlots] at h
  | succ fuel ih =>
    intro last i b b' i' h
    unfold runSlots at h
    split at h
    · cases h
    · dsimp only at h
      split at h
      · cases h
      · split at h
        · cases h
        · rename_i v st n _
          split at h
          · simp only [Except.ok.injEq, Prod.mk.injEq] at h
            rw [← h.1]; exact Nat.le_max_left _ _
          · exact Nat.le_trans (Nat.le_max_left _ _) (ih _ _ _ _ _ h)

/-- A step after which the solver stands at a position. -/
theorem standsAt_shape (u u1 : Cpu) (v : Solver) (p : BlockPos) (r : Ret) (hu : u1 = { u with solver := v }) (h1 : r.effect = none)
    (h2 : r.jump = none) (h3 : 1 ≤ r.cycles) (h4 : r.trap = none) : SolveShape u (standsAt u1 p r) := by
  subst hu
  exact ⟨h1, h2, fun _ => ⟨h4, rfl, by simp [standsAt], h3⟩, by simp [standsAt], by simp [standsAt, h4]⟩

theorem solveAt_shape (s : State) (t : Nat) (x : Tile) (u : Cpu) (w : Solver) (h : BlockHeader) (base : Nat) (code : Nat → Word)
    (issue : Nat) (p : BlockPos) : SolveShape u (solveAt s t x { u with solver := w } h base code issue p) := by
  cases p with
  | stage i =>
    refine standsAt_shape u _ _ _ _ rfl rfl rfl ?_ rfl
    simp only [stageCycles]
    split <;> (try simp [farCycles]) <;> omega
  | course i k =>
    simp only [solveAt]
    split
    · exact illegalCourse_shape _ _ _ _ _ [] _ (fun _ => rfl)
    · rename_i b k' hb
      have hc : 1 ≤ issue + b.cycles := Nat.le_trans (runSlots_cycles _ _ _ _ _ _ _ _ _ _ hb) (Nat.le_add_left _ _)
      split
      · exact standsAt_shape u _ b.solver _ _ rfl rfl rfl hc rfl
      · split
        · exact illegalCourse_shape _ _ _ _ _ _ _ (by simp)
        · split
          · exact standsAt_shape u _ b.solver _ _ rfl rfl rfl hc rfl
          · exact handOff_shape u b.solver _ rfl rfl rfl rfl rfl
  | writeBack i =>
    simp only [solveAt]
    split
    · exact handOff_shape u w _ rfl rfl rfl rfl rfl
    · split <;> split
      · exact standsAt_shape u _ w _ _ rfl rfl rfl (by simp) rfl
      · exact standsAt_shape u _ w _ _ rfl rfl rfl (by simp) rfl
      · exact handOff_shape u w _ rfl rfl rfl rfl rfl
      · exact handOff_shape u w _ rfl rfl rfl rfl rfl

/-- The one spec lemma of a retire step of SOLVE. -/
theorem solveRet_shape (s : State) (t : Nat) (x : Tile) (u : Cpu) (block : Word) : SolveShape u (solveRet s t x u block) := by
  unfold solveRet
  dsimp only
  split
  · exact illegalCourse_shape _ _ _ _ _ [] _ (fun _ => rfl)
  · split
    · exact solveAt_shape s t x u u.solver _ _ _ _ _
    · split
      · exact (solveAt_shape s t x u _ _ _ _ _ _).withReads _
      · exact illegalCourse_shape _ _ _ _ _ [] _ (fun _ => rfl)

theorem trapOrDouble_solver (c : Cpu) (num d : Nat) (w w2 : Word) (e : Nat) :
    (trapOrDouble c num d w w2 e).cpu.solver = c.solver := by
  unfold trapOrDouble takeTrap; split
  · rfl
  · dsimp only; split <;> rfl

theorem steady_solve (t : Nat) (block : Word) :
    Steady t (header 0o64 0 0 0) block Cpu.solving (fun s x u => solveRet s t x u block) := by
  intro s h r hmid
  have hs : SolveShape (s.tile t).cpu r := solveRet_shape s t (s.tile t) (s.tile t).cpu block
  cases ht : r.trap with
  | none =>
    rw [runInstr_cpu h _ _ _ ht] at hmid
    change (Cpu.solving { advancePc _ r with budget := (advancePc _ r).budget - r.cycles } : Bool) = true at hmid
    have hm : r.cpu.solving = true := by rw [← hmid]; simp only [Cpu.solving, advancePc]; split <;> rfl
    cases hh : r.hold with
    | true =>
      obtain ⟨_, hc, _, h1⟩ := hs.held hh
      refine ⟨rfl, rfl, h1, ?_⟩
      rw [hc]; exact h.2
    | false => simp [Cpu.solving, (hs.done ht hh).1] at hm
  | some d =>
    exfalso
    obtain ⟨_, h2, hn, _⟩ := hs.trap d ht
    obtain ⟨n, c⟩ := d; subst h2
    rw [runInstr_trap h _ _ _ ht, stays_cpu] at hmid
    change (Cpu.solving (resolveTrap _ _ _ r).cpu) = true at hmid
    have : (resolveTrap (s.tile t).cpu (header 0o64 0 0 0) block r).cpu.solver = r.cpu.solver := by
      simp [resolveTrap, ht, trapOrDouble_solver]
    unfold Cpu.solving at hmid
    rw [this, hn] at hmid
    exact Bool.false_ne_true hmid

end Sys2Proof.Machine
end

