-- ==== Sys2Proof/Tests/Slice0.lean ====
section
/-!
SUPPORT. Tests on fixed values: the checks of the operands refuse what is out of range; the spec's worked examples; and for every
statement with hypotheses, states and operands that meet them.
-/

namespace Sys2Proof.Tests

open Sys2Proof Sys2Proof.Machine Sys2Proof.Claims

/-! ## Helpers -/

/-- The next state a command answers. -/
def next (o : Out) : State := match o with | .next t => t | _ => {}

/-- A request under session 1. -/
def ask (code : Nat) (a0 a1 a2 a3 : Word) (data : List Word := []) : Req :=
  ⟨.session 1, ⟨word code, 7, a0, a1, a2, a3, 0⟩, data⟩

/-- A maker's certificate, valid for ever. -/
def maker : Certificate := ⟨.maker 1, 3, 5 * 2 ^ 56, 0, 2 ^ 34⟩

/-- A powered Keystone in Run, every ring the foreman's, with a maker's session. -/
def bench : State :=
  { md := { mode := .run, tasksRun := true, imageClosed := true }
    power := { on := (List.range 10).map fun d => (d, true) }
    rings := (List.range 9).map fun r => (r, { owner := 0, en := true })
    sessions := [⟨1, maker⟩]
    recorder := { open_ := true }
    arch := { lstate := 6 } }

/-- The bench in a mode. -/
def benchIn (m : Mode) : State := { bench with md := { mode := m } }

/-- Ring `r` takes a request that has its right, and what it then meets holds. -/
def meets (s : State) (r code right : Nat) (q : Req) (p : State → Req → Bool) : Bool :=
  match s.takeReq r code q with
  | some (s1, q1) => decide (right ≤ s1.rightOf r q.origin) && p s1 q1
  | none => false

/-- Ring `r` takes a request that lacks its right. -/
def lacks (s : State) (r code right : Nat) (q : Req) : Bool :=
  match s.takeReq r code q with
  | some (s1, _) => decide (s1.rightOf r q.origin < right)
  | none => false

/-- The set-up registers with the values given, in effect. -/
def withSetup (l : List (Nat × Word)) (s : State) : State :=
  let t := l.map fun e => (e.1, some e.2)
  { s with setup := t, setupTick := t, setupStart := t }

/-- What `meets` tests is the premise of the statements. -/
theorem meets_taken {s : State} {r code right : Nat} {q : Req} {p : State → Req → Bool} (h : meets s r code right q p = true) :
    ∃ s1 q1, Taken s r code right q s1 q1 ∧ p s1 q1 = true := by
  unfold meets at h
  split at h
  · rename_i s1 q1 e
    simp only [Bool.and_eq_true, decide_eq_true_eq] at h
    exact ⟨s1, q1, ⟨e, h.1⟩, h.2⟩
  · cases h

/-- A test of `Runs`. -/
def runsB (s : State) (t : Nat) : Bool :=
  decide (t < s.tileCount) && !(s.tile t).closeDue && (s.tile t).running && s.upsets.isEmpty &&
    decide ((s.tile t).checker = (s.tile t).cpu)

/-- What `runsB` tests is `Runs`. -/
theorem runs_of {s : State} {t : Nat} (h : runsB s t = true) : Runs s t := by
  simp only [runsB, Bool.and_eq_true, decide_eq_true_eq, Bool.not_eq_true'] at h
  obtain ⟨⟨⟨⟨h1, h2⟩, h3⟩, h4⟩, h5⟩ := h
  exact ⟨h1, h2, h3, by simpa using h4, h5⟩

/-- A test of `Ready`. -/
def readyB (s : State) (t : Nat) : Bool := runsB s t && decide ((s.tile t).cpu.rep = .none)

/-- What `readyB` tests is `Ready`. -/
theorem ready_of {s : State} {t : Nat} (h : readyB s t = true) : Ready s t := by
  simp only [readyB, Bool.and_eq_true, decide_eq_true_eq] at h
  exact ⟨runs_of h.1, h.2⟩

/-- What a quiet start finds. -/
def onStart : StartInputs :=
  { el := ⟨0, 0, []⟩, voltsA := 240, voltsB := 0, hold := 0, slotAOk := true, slotBOk := true, settings := [], failed := [] }

/-- What a quiet boundary brings: nothing. -/
def quiet : BoundaryInputs := ⟨⟨0, 0, []⟩, 0, 0, 0⟩

/-- A slot of a run table. -/
def slot0 : SlotEntry := ⟨0, 3, 1, 0, 0o100, 4000, 4000⟩

/-- The bench with tile 0 at work on a slot, its registers as given. -/
def working (regs : Tbl Word := []) (fl : Flags := {}) : State :=
  let u : Cpu := { regs := regs, fl := fl, budget := 3900, pc := 0o100 }
  bench.setTile 0 { cpu := u, checker := u, activation := some { slot := 0, entry := slot0 } }

/-- Tile 0's core after a command. -/
def core0 (o : Out) : Cpu := ((next o).tile 0).cpu

/-! ## Well-formedness: each check refuses an operand out of its range -/

theorem test_wf_accepts : Instr.wellFormed (.slotDispatch 27 62) = true ∧ Instr.wellFormed (.ringEnable 62 8) = true ∧
    Instr.wellFormed (.lockRead 63 [0, 1]) = true := by decide
theorem test_wf_tile : Instr.wellFormed (.nop 28) = false := by decide
theorem test_wf_slot : Instr.wellFormed (.slotDispatch 0 63) = false := by decide
theorem test_wf_master : Instr.wellFormed (.ringEnable 63 0) = false := by decide
theorem test_wf_masters : Instr.wellFormed (.lockRead 0 []) = false ∧ Instr.wellFormed (.lockRead 0 [1, 1]) = false := by decide
theorem test_wf_ring : Instr.wellFormed (.ringResetEnd 9) = false := by decide
theorem test_wf_channel : Instr.wellFormed (.withdrawResult 32 true) = false := by decide
theorem test_wf_lock : Instr.wellFormed (.lockWrite 0 64) = false := by decide
theorem test_wf_index : Instr.wellFormed (.registerWrite 0 none ⟨.index (2 ^ 18), 0⟩ ⟨[], []⟩) = false ∧
    Instr.wellFormed (.registerWrite 0 none ⟨.index 0, 0⟩ ⟨[⟨63, none, .index 0⟩], []⟩) = false ∧
    Instr.wellFormed (.registerWrite 0 none ⟨.index 0, 0⟩ ⟨[], [⟨0, none, ⟨.index 0, 0⟩⟩]⟩) = false := by decide
theorem test_wf_link : Instr.wellFormed (.portLinkUp 16 true) = false := by decide
theorem test_wf_die : Instr.wellFormed (.bondTestVerdict 0 0 true true) = false ∧
    Instr.wellFormed (.bondTestVerdict 8 0 true true) = false := by decide
theorem test_wf_position : Instr.wellFormed (.bondTestVerdict 1 4 true true) = false := by decide
theorem test_wf_page : Instr.wellFormed (.mirrorPageCopy 8192 []) = false := by decide
theorem test_wf_domain : Instr.wellFormed (.domainFault 10 ⟨true, true⟩) = false := by decide
theorem test_wf_feed : Instr.wellFormed (.feedStateChange 2 0 false) = false := by decide
theorem test_wf_pulse : Instr.wellFormed (.pulseEnd 2) = false := by decide
theorem test_wf_alarm : Instr.wellFormed (.alarmFire 2) = false := by decide
theorem test_wf_bus : Instr.wellFormed (.busOff 8 0) = false := by decide
theorem test_wf_telegram : Instr.wellFormed (.subscriptionTimeout 512) = false := by decide
theorem test_wf_mvb_port : Instr.wellFormed (.mvbMasterFrame 4096) = false := by decide
theorem test_wf_octets : Instr.wellFormed (.telegramReceipt 0 [256] true) = false := by decide
theorem test_wf_safety_input : Instr.wellFormed (.safetyInputFilter 16 true) = false := by decide
theorem test_wf_safety_output : Instr.wellFormed (.darkTest 4 true) = false := by decide
theorem test_wf_field_input : Instr.wellFormed (.inputDebounce 32 none) = false := by decide
theorem test_wf_field_output : Instr.wellFormed (.fieldOutputFault 16 1 true) = false := by decide
theorem test_wf_output_fault : Instr.wellFormed (.fieldOutputFault 0 0 true) = false ∧
    Instr.wellFormed (.fieldOutputFault 0 6 true) = false := by decide
theorem test_wf_modulator : Instr.wellFormed (.modulatorLinkLoss 2) = false := by decide
theorem test_wf_session : Instr.wellFormed (.serviceSessionClose 4) = false := by decide
theorem test_wf_session_named : Instr.wellFormed (.haltSet 0 (some 4)) = false := by decide
theorem test_wf_tick : Instr.wellFormed (.dismissalReceipt (2 ^ 36)) = false := by decide
theorem test_wf_tick_named : Instr.wellFormed (.armedTickReceipt (some (2 ^ 36))) = false := by decide
theorem test_wf_width : Instr.wellFormed (.hostLinkUp 0 true) = false ∧ Instr.wellFormed (.hostLinkUp 3 true) = false := by decide
theorem test_wf_origin : originOk (.ring 4096) = false ∧ originOk (.tile 28 0) = false ∧ originOk (.tile 0 256) = false ∧
    originOk (.session 4) = false := by decide
theorem test_wf_request : Instr.wellFormed (.load ⟨.session 4, (ask 0 0 0 0 0).desc, []⟩) = false := by decide
theorem test_wf_start : startOk { onStart with failed := [(8, 0, 0)] } = false ∧
    startOk { onStart with mismatches := [(28, true)] } = false ∧ startOk { onStart with ports := [16] } = false ∧
    startOk { onStart with survey := [⟨0, 16, 0, 0, 0, 0⟩] } = false := by decide
theorem test_wf_starts : Instr.wellFormed (.sealComplete (some { onStart with ports := [16] }) true 0) = false := by
  decide
theorem test_wf_form : Instr.wellFormed (.iFormReceipt 0 ⟨0x88B5, false, true, false, 0, 0, 0, [⟨16, true, false, false, false, 0, 0, []⟩]⟩) = false := by
  decide
theorem test_wf_relay : Instr.wellFormed (.relayReceipt ⟨16, 0, 0, false, []⟩) = false := by decide
theorem test_wf_heartbeat : Instr.wellFormed (.heartbeatReceipt true ⟨12, 0, true, false, false, 0, 0, 0⟩) = false ∧
    Instr.wellFormed (.heartbeatReceipt true ⟨0, 8, true, false, false, 0, 0, 0⟩) = false := by decide
theorem test_wf_can_frame : Instr.wellFormed (.canFrameReceived 0 ⟨false, false, false, false, false, 8, 2048, []⟩ 0) = false ∧
    Instr.wellFormed (.canFrameReceived 0 ⟨true, false, false, false, false, 16, 0, []⟩ 0) = false := by decide
theorem test_wf_sample : Instr.wellFormed (.meteringSample ⟨[1, 2], [], 0, 0, 0, 0⟩) = false := by decide

/-! ## Worked examples of the spec -/

/-- Words of tile 0's code memory. -/
def codeAt (a : Nat) (l : List Word) (s : State) : State :=
  s.setMem 0 { s.mem 0 with code := Tbl.setMany 0 (s.mem 0).code a l }

/-- Words of tile 0's data memory. -/
def dataAt (a : Nat) (l : List Word) (s : State) : State :=
  s.setMem 0 { s.mem 0 with data := Tbl.setMany 0 (s.mem 0).data a l }

/- 00_scope.md, worked example: the tick number 1,000,000 as a double word. -/
theorem test_double_word : (lowWord 1000000, highWord 1000000) = (0o641_100, 0o000_003) := by decide

/- 04_tile_instruction_set.md: BFX g1, g0, pos 9, len 8 and BFI g1, g0, pos 8, len 8 on the octets 0x12, 0x34. -/
theorem test_bfx_octet : (core0 (execBfx 0 1 0 9 8 (working [(0, 0o064_022)]))).reg 1 = 0o000_064 := by decide
theorem test_bfi_octet : (core0 (execBfi 0 1 0 8 8 (working [(0, 0o064_022), (1, 0o000_064)]))).reg 1 = 0o011_064 := by decide

/- 04_tile_instruction_set.md: NPERM d1, d0 with the selector 3, 2, 1, 0. -/
theorem test_nperm_reverses : let u := core0 (execNperm 0 2 0 0o033 (working [(0, 0o064_022), (1, 0o170_126)]))
    u.reg 2 = 0o126_170 ∧ u.reg 3 = 0o022_064 := by decide

/- 04_tile_instruction_set.md: the end mark of a frame. LDNI of the third octet, 0x4B with bit 8, sets C. -/
theorem test_ldni_end_mark : let u := core0 (execLdni 0 1 2 (dataAt 0o004_000 [0o003_107, 0o000_513] (working [(2, 0o010_002)])))
    u.reg 1 = 0o000_513 ∧ u.reg 2 = 0o010_003 ∧ u.fl.c = true ∧ u.fl.z = false := by decide
/- The same routine: BR GEU with offset 0o775 from 0o000_205 goes to 0o000_203. -/
theorem test_br_offset :
    (core0 (execBr 0 4 0o775 ((working).setTile 0 { (working).tile 0 with cpu := { budget := 3900, pc := 0o205 } }))).pc = 0o203 := by decide

/- 04_tile_instruction_set.md, R114: DIVS truncates towards zero; −7 / 2 is −3, remainder −1. -/
theorem test_divs_truncates : let u := core0 (execDivs 0 4 0 2 (working [(0, 0o777_771), (1, 0o777_777), (2, 2)]))
    u.reg 4 = 0o777_775 ∧ u.reg 5 = 0o777_777 ∧ u.fl.v = false := by decide

/-- The block of 03_solver_courses.md, "a door interlock network", at code address 0o020_000. -/
def doorBlock : List Word :=
  [0o010_003, 0o000_015, 0o000_024, 0o010_100, 0o000_002, 0, 0, 0o000_100, 0o140_001, 0o000_200, 0o340_002, 0o010_000,
   0o000_000, 0o500_002, 0o014_001, 0o520_003, 0o070_004, 0o500_005, 0o034_100, 0o510_006, 0o034_042, 0o700_013,
   0o000_004, 0o534_041, 0o734_002, 0o410_100, 0o044_101, 0o500_007, 0o524_100, 0o550_101, 0o400_101, 0o434_040]

/-- Tile 0 before its SOLVE: the door closed and locked, zero speed, release left, the button just pressed; cell 1 a TON of
500,000 µs that has run since tick 0; task 3 writes output word 0o000_200. -/
def doorState (count : Nat) : State :=
  let s := dataAt 0o010_100 [0, 0, 0, 0, 0, 8, 0, 0, 0o720_440, 0o000_001, 0, 0, 0, 14, 0, 0] (codeAt 0o020_000 doorBlock (working))
  { s with work := { s.work with count := count, mortar := { s.work.mortar with input := [(0o100, 0o165)] }
                                 program := { s.work.program with tasks := [⟨3, [⟨1, 0o200, 1⟩], []⟩] } } }

/-- Tile 0 after `n` retire steps of a SOLVE, its windows left aside. -/
def solved (block : Word) : Nat → State → State
  | 0, s => s
  | n + 1, s =>
    let x := s.tile 0
    let r := solveRet s 0 x x.cpu block
    solved block n (s.setTile 0 { x with cpu := r.cpu, checker := r.cpu, filling := pushStores x.filling r.stores, held := r.held.getD x.held })

/-- What the door block's SOLVE writes back to the output image: 3 stage entries, 13 courses, 2 write-backs. -/
def doorWrites (count : Nat) : Tbl (Option Word) := ((solved 0o020_000 18 (doorState count)).tile 0).held

/- RELEASE_OK and OPEN_REQ hold, so DOOR_OPEN and RELEASE_LAMP; the timer of 500 ms still runs in tick 499. -/
theorem test_door_block_before : doorWrites 499 = [(2 ^ 18 + 0o200, some 5)] := by decide +kernel
/- In tick 500 ET reaches PT: LOCKED_OK is set too. -/
theorem test_door_block_after : doorWrites 500 = [(2 ^ 18 + 0o200, some 7)] := by decide +kernel

/- 07_station_links.md, "the door line": margins, the first header group, h5–h7, and the octets' OFFSET arithmetic. -/
theorem test_header_words :
    FormHeader.words ⟨0, false, false, 0, false, false, 1000000, 6, 20, 0, 1000, 3⟩ 0 true 6 =
      [0o100_020, 0o641_100, 0o000_003, 0o000_006, 0, 0o050_300, 0o001_750, 0o006_000] := by decide
theorem test_offset : offsetOf 400 9464 8120 = 872 := by decide
theorem test_form_octets : formOctets [2, 2, 2, 2, 2, 3] = 173 := by decide
theorem test_margins : marginOf (8000 - (400 + 1144 + 32 * 173 + 400)) = 1 ∧
    marginOf (24000 - 800 - (8000 + 400 + 1144 + 32 * 173 + 400)) = 19 := by decide

/- 09_rings_mailboxes_locks.md: the host writes CPI = 60 with QCI = 40 and SIZE 16: CPI becomes 56; after QCI reaches 44, 60. -/
theorem test_doorbell_clamps : clampCpi 16 40 40 60 = 56 ∧ clampCpi 16 44 56 60 = 60 := by decide
/- The foreman and the host read a lock in one cycle; the foreman restarts; the host reads it again, twice. -/
theorem test_lock_example :
    let s := next (execLockRead 12 [0, 1] bench)
    let s2 := next (execLockRead 12 [1] (next (execForemanRestart s)))
    s.lastRead = [0o600_000, 0o200_000] ∧ s2.lastRead = [0o700_001] ∧ (next (execLockRead 12 [1] s2)).lastRead = [0o200_001] := by
  decide +kernel

/- 10_train_networks_time.md, "coupling at a station": words 0o077_060 and 0o077_061. -/
theorem test_topology_words :
    ((withSetup [(0o010_001, 0o401_004)]
      { bench with train := { confirmed := some ⟨2, 2, true, 3, 7, 0, []⟩ } }).applyTopology.topologyWords).take 2 =
      [0o300_202, 0o003_007] := by decide +kernel

/- 16_clock_watchdog.md, "setting the clock in the depot". -/
theorem test_date_word : dateWord (daysOf 2031 3 14 * 86400) = 0o037_156 := by decide
theorem test_time_words : timeWord 36120 = 0o120_200 ∧ timeWord 36300 = 0o120_500 := by decide
theorem test_date_clamped : clampDate (BitVec.ofNat 18 (31 * 512 + 2 * 32 + 30)) = BitVec.ofNat 18 (31 * 512 + 2 * 32 + 28) := by decide

/- 18_feeds_power_connectors.md, R487's table: V_SR at P = 250, 1,000, 2,000, 100,000 µs and 1 s. -/
theorem test_seal_reserve :
    [250, 1000, 2000, 100000, 1000000].map sealReserve = [291, 292, 293, 395, 897] := by decide +kernel

/- 19_setup_register_map.md: SL_STD(37) and MB_CTLY(5). -/
theorem test_register_indices : 0o002_000 + 4 * 37 + 3 = 0o002_227 ∧ 0o004_000 + 64 * 5 + 5 = 0o004_505 := by decide

/- 02_ticks_tasks_images.md, R43: a period of 640 µs under LOCK is taken as 625 µs. -/
theorem test_locked_period : let s := { benchIn .stop with work := { setup := { lock := true } } }
    (next (execTkPer1Write 0 (some 1) 0 (next (execTkPer0Write 0 (some 1) 640 s)))).work.setup.period = 625 := by decide

/- 08_arches_lease_ledger.md, "a takeover with slip": K2 of side 1 claims 37 above 36; the boundary 28.1 µs late reads SLIP 29. -/
def k2 : State :=
  { benchIn .track with
    arch := { lstate := 3, epoch := 35, peerEpoch := 36, maxSepoch := 36, paired := true, aup := true }
    setup := [(0o600, some 0o600_000)], setupTick := [(0o600, some 0o600_000)], setupStart := [(0o600, some 0o600_000)] }
theorem test_epoch_claimed : (next (execLeaseExpiry k2)).arch.epoch = 37 := by decide
theorem test_slip : let s := next (execLeaseExpiry { k2 with arch := { k2.arch with relayMissed := true } })
    (next (execTakeoverBoundary 2410 quiet s)).arch.slip = 29 := by decide +kernel

/- 04_tile_instruction_set.md: the words of its examples, written out; an opcode that R110 reserves. -/
theorem test_words_of_the_spec :
    tileCommand 0 0o021_203 0 = .add 0 1 2 3 ∧ tileCommand 0 0o602_005 0o010_000 = .moviImm18 0 2 0o010_000 ∧
    tileCommand 0 0o113_000 0 = .movi 0 3 0 ∧ tileCommand 0 0o271_202 0 = .ldni 0 1 2 ∧ tileCommand 0 0o033_321 0 = .addus 0 3 3 1 ∧
    tileCommand 0 0o304_775 0 = .br 0 4 0o775 ∧ tileCommand 0 0o611_000 0o111_000 = .bfx 0 1 0 9 8 ∧
    tileCommand 0 0o611_002 0o101_000 = .bfi 0 1 0 8 8 ∧ tileCommand 0 0o442_033 0 = .nperm 0 2 0 0o033 ∧
    tileCommand 0 0o010_304 0 = .wrct 0 3 ∧ tileCommand 0 0o360_000 0 = .rep 0 ∧ tileCommand 0 0o402_005 0 = .fsti 0 2 0 ∧
    tileCommand 0 0o700_000 5 = .reservedOpcodeTrap 0 0o700_000 5 := by decide
/- R119's routine, summing a received frame: one turn of its loop adds the octet 0x47. -/
theorem test_addus : (core0 (execAddus 0 3 3 1 (working [(1, 0o000_107)]))).reg 3 = 0o000_107 := by decide

/- 07_station_links.md, R204: the octets of a word group. -/
theorem test_group_octets : groupOctets 0o100_020 0o641_100 0o000_003 0o000_005 = [0x20, 0x04, 0x34, 0x24, 0, 0, 0x0C, 0, 0x05] := by decide

/- 11_can_and_serial.md, worked example: the reset bit times, 160 and 40 periods of 12.5 ns, sampled at 80 % and 75 %. -/
theorem test_bit_timing : bitTiming (bitsOf (0o037_001 : Word) 7 0) (bitsOf (0o037_001 : Word) 15 8) (bitsOf (0o003_617 : Word) 6 0) = (160, 128) ∧
    bitTiming 0 28 9 = (40, 30) := by decide

/- 14_energy_measurement.md, R380: a frame with its sync, V1 = 1 and S = 1, of even parity; without the sync it is bad. -/
theorem test_modulator_frame : let f : BitVec 16 := 0b1001101010010011
    frameGood f = true ∧ cellBit f 2 = true ∧ cellBit f 3 = false ∧ frameStarts f = true ∧ cellBit f 7 = false ∧ frameGood (f ^^^ 3) = false ∧
    frameGood (f ^^^ 0xC000) = false := by decide

/-! ## States that meet the premises of the statements: tiles -/

/-- Tile 0 at work with its core as given. -/
def atWork (u : Cpu) (m : TileMem := {}) : State :=
  let v : Cpu := { u with budget := 3900, pc := 0o100 }
  ((working).setTile 0 { (working).tile 0 with cpu := v, checker := v }).setMem 0 m

theorem witness_ready : Ready (working) 0 := ready_of (by decide)

/-- The exact quotient of d0 by g2. -/
def quotient (regs : Tbl Word) : Int := (Cpu.pair { regs := regs } 0).toInt.tdiv (Cpu.reg { regs := regs } 2).toInt

/- Arithmetic: the quotient at both ends of its range and one beyond, signed and unsigned. -/
theorem witness_divides :
    Ready (working [(0, 0o400_000), (1, 0o777_777), (2, 1)]) 0 ∧ quotient [(0, 0o400_000), (1, 0o777_777), (2, 1)] = -131072 ∧
    Ready (working [(0, 0o377_777), (1, 0o777_777), (2, 1)]) 0 ∧ quotient [(0, 0o377_777), (1, 0o777_777), (2, 1)] = -131073 ∧
    Ready (working [(0, 0o377_777), (2, 1)]) 0 ∧ quotient [(0, 0o377_777), (2, 1)] = 131071 ∧
    Ready (working [(0, 0o400_000), (2, 1)]) 0 ∧ quotient [(0, 0o400_000), (2, 1)] = 131072 ∧
    (Cpu.pair { regs := [(0, 0o777_777)] } 0).toNat = 262143 ∧ (Cpu.pair { regs := [(1, 1)] } 0).toNat = 262144 :=
  ⟨ready_of (by decide), by decide, ready_of (by decide), by decide, ready_of (by decide), by decide, ready_of (by decide), by decide,
   by decide, by decide⟩

/- BranchesAndCalls: a condition that holds and one that does not; CT at 0, 1 and 2. -/
theorem witness_branches : condition {} 0 ∧ ¬ condition {} 1 ∧ Ready (atWork { ct := 0 }) 0 ∧ Ready (atWork { ct := 1 }) 0 ∧
    Ready (atWork { ct := 2 }) 0 :=
  ⟨trivial, (Bool.false_ne_true ·), ready_of (by decide), ready_of (by decide), ready_of (by decide)⟩

/-- Tile 0 with the stack words 8 to 15, SP as given. -/
def stacked (sp : Word) : State := atWork { regs := [(7, sp)] } { sblo := 8, sbhi := 15 }

/- BranchesAndCalls, TrapsTaken: SP from SBLO + 1 to SBHI + 1 for a push, at SBLO for its trap; from SBLO to SBHI for a pop, at
SBHI + 1 for its trap; two words for the pair forms. -/
theorem witness_stack : ∀ sp ∈ [8, 9, 10, 14, 15, 16], Ready (stacked (BitVec.ofNat 18 sp)) 0 ∧
    (((stacked (BitVec.ofNat 18 sp)).tile 0).cpu.reg 7).toNat = sp ∧ ((stacked (BitVec.ofNat 18 sp)).mem 0).sblo.toNat = 8 ∧
    ((stacked (BitVec.ofNat 18 sp)).mem 0).sbhi.toNat + 1 = 16 ∧ ((stacked (BitVec.ofNat 18 sp)).tile 0).cpu.trapact = false := by
  intro sp h
  simp only [List.mem_cons, List.not_mem_nil, or_false] at h
  rcases h with rfl | rfl | rfl | rfl | rfl | rfl <;> exact ⟨ready_of (by decide), by decide, by decide, by decide, by decide⟩

/-- Tile 0 of the door block after `n` steps of it. -/
def doorAt (n : Nat) : State := solved 0o020_000 n (doorState 499)

/- SolveAndItsTraps: the last step of a block, its first, a stage entry and a write-back, and a block whose header is illegal. -/
theorem witness_solve :
    let r (n : Nat) : Ret := solveRet (doorAt n) 0 ((doorAt n).tile 0) ((doorAt n).tile 0).cpu 0o020_000
    (r 17).trap = none ∧ (r 17).hold = false ∧ (r 0).trap = none ∧ (r 0).hold = true ∧
    ((doorAt 1).tile 0).cpu.solver.next = some (.stage 1) ∧ ((doorAt 16).tile 0).cpu.solver.next = some (.writeBack 0) := by
  decide +kernel
theorem witness_solve_ready : Ready (doorAt 17) 0 ∧ Ready (doorAt 0) 0 := ⟨ready_of (by decide +kernel), ready_of (by decide +kernel)⟩
theorem witness_solve_trap : Ready (working) 0 ∧
    (solveRet (working) 0 ((working).tile 0) ((working).tile 0).cpu 0o020_000).trap.isSome ∧
    ((working).tile 0).cpu.trapact = false :=
  ⟨ready_of (by decide), by decide +kernel, by decide⟩

/- RequestsInSteps: END of task 3, whose write set is one word, before its first step and part way, and of a task with none. -/
theorem witness_requests :
    let part (k : Nat) : State := (doorState 499).setTile 0 { (doorState 499).tile 0 with
      cpu := { request := some k, budget := 9 }, checker := { request := some k, budget := 9 } }
    let bare : State := { (doorState 499) with work := { (doorState 499).work with program := { tasks := [⟨3, [], []⟩] } } }
    let large : State := { (part 0) with work := { (part 0).work with program := { tasks := [⟨3, [⟨1, 0, 40⟩], []⟩] } } }
    Ready (doorState 499) 0 ∧ Ready (part 0) 0 ∧ Ready bare 0 ∧ Ready large 0 ∧
    ((doorState 499).tile 0).cpu.request = none ∧ ((part 0).tile 0).cpu.request = some 0 ∧
    (doorState 499).work.program.tasks.find? (fun e => e.task == 3) = some ⟨3, [⟨1, 0o200, 1⟩], []⟩ ∧
    ((doorState 499).tile 0).activation.isSome ∧ slot0.task = 3 :=
  ⟨ready_of (by decide +kernel), ready_of (by decide +kernel), ready_of (by decide +kernel), ready_of (by decide +kernel),
   by decide +kernel, by decide +kernel, by decide +kernel, by decide +kernel, by decide⟩

/- TrapsTaken: a reserved opcode of one word, TRAPACT clear and set; a divisor of 0; RETT with f5 0 and 3. -/
theorem witness_traps :
    (reservedDetail 0o410_000 0).isSome ∧ Ready (atWork {}) 0 ∧ ((atWork {}).tile 0).cpu.reg 2 = 0 ∧
    Ready (atWork { trapact := true }) 0 ∧ ((atWork { trapact := true }).tile 0).cpu.trapact = true ∧
    ((atWork {}).tile 0).load ((atWork {}).mem 0) 5 = 0 ∧
    Ready (atWork {} { data := [(5, 3)] }) 0 ∧
    ((atWork {} { data := [(5, 3)] }).tile 0).load ((atWork {} { data := [(5, 3)] }).mem 0) 5 = 3 :=
  ⟨by decide, ready_of (by decide), by decide, ready_of (by decide), by decide, by decide, ready_of (by decide), by decide⟩

/- RepetitionAndFrame: RC 0 at an armed REP, RC 1 and RC 2. -/
theorem witness_repeats : Repeats (atWork { rep := .armed, rc := 0 }) 0 ∧ Repeats (atWork { rep := .running, rc := 1 }) 0 ∧
    Repeats (atWork { rep := .running, rc := 2 }) 0 :=
  ⟨⟨runs_of (by decide), by decide⟩, ⟨runs_of (by decide), by decide⟩, ⟨runs_of (by decide), by decide⟩⟩

/-- Tile 0 with a close due, an effect withheld and stores in the other bank, as given. -/
def closing (e : Option Effect) (draining : List (Addr × Word)) : State :=
  (working).setTile 0 { (working).tile 0 with closeDue := true, effect := e, draining := draining, held := [(2 ^ 18 + 5, some 1)] }

/- WindowsAndBanks, EndCommits, Migration: a close with and without an effect, the other bank drained or not. -/
theorem witness_window :
    ((closing none []).tile 0).activation.isSome ∧ ((closing none []).tile 0).closeDue = true ∧ ((closing none []).tile 0).draining = [] ∧
    ((closing (some .finish) []).tile 0).effect = some .finish ∧ (closing (some .finish) []).md.mode = .run ∧
    Tbl.wf none ((closing (some .finish) []).tile 0).held = true ∧
    ((closing none []).tile 0).signature = ((closing none []).tile 0).checkSig ∧ 0 < (closing none []).tileCount ∧
    ((closing none (List.replicate 32 (1, 2))).tile 0).draining.length = 32 ∧
    ((closing none (List.replicate 33 (1, 2))).tile 0).draining.length = 33 ∧
    ((closing none [(1, 2)]).tile 0).closeWaits = false ∧ ((closing none []).tile 0).activation.bind Activation.stopDue = none := by
  decide

/-- A close that waits for its other bank, and one after which the tile stops. -/
def waiting : State := let s := closing none (List.replicate 33 (1, 2)); s.setTile 0 { s.tile 0 with closeWaits := true }
def stopping (k : StopKind) : State :=
  let s := closing none []
  s.setTile 0 { s.tile 0 with activation := (s.tile 0).activation.map fun a => { a with stopDue := some k } }
theorem witness_stops : (waiting.tile 0).closeWaits = true ∧ (waiting.tile 0).effect = none ∧
    ∀ k ∈ [StopKind.step, .brk, .debug], ((stopping k).tile 0).activation.bind Activation.stopDue = some k := by decide

/-- Die 1 as shipped: positions 0–2 run their slots, position 3 is the reserve. -/
def shipped : Die := { bonds := [(0, { state := .running 0 }), (1, { state := .running 1 }), (2, { state := .running 2 })], reserve := some 3 }

theorem witness_migration : let s := (closing none []).setDie 1 shipped
    (s.die 1).reserve = some 3 ∧ (s.die 1).positionOf 0 = some 0 ∧ s.tilesPerDie = 3 ∧ s.dieCount = 7 ∧ s.upsets = [] ∧
    (s.tile 0).signature ^^^ 1 ≠ (s.tile 0).checkSig ^^^ 0 := by decide

/- Migration: a bond under test, no suspect, a suspect with two and with three transients within 1,000 h. -/
theorem witness_verdict :
    ∀ l ∈ [([] : List Nat), [18204, 18950], [100, 18950]],
      (((bench.setDie 2 { bonds := [(1, { state := .testing, transients := l, suspect := true })], hours := 19120 }).die 2).bond 1).state = .testing := by
  decide
theorem witness_transients :
    (([100, 18950] ++ [19120]).filter fun h => decide (19120 ≤ h + 1000)).length = 2 ∧
    (([18204, 18950] ++ [19120]).filter fun h => decide (19120 ≤ h + 1000)).length = 3 := by decide

/- SlotsAndBudgets: a slot of the run table in its tick; a budget spent with END not retired. -/
theorem witness_slot : let s := bench.setMem 0 { run := [slot0], sbhi := 15 }
    s.md.tasksRun = true ∧ s.md.imageClosed = true ∧ (s.tile 0).closeDue = false ∧ (s.tile 0).activation = none ∧
    (∀ d ∈ (s.tile 0).slotsDone, d < 0) ∧ s.md.startTick = false ∧ (s.mem 0).run[0]? = some slot0 ∧ s.work.count % slot0.period = slot0.phase := by
  decide
theorem witness_overrun : let s := (working).setTile 0 { (working).tile 0 with cpu := { budget := 0 } }
    (s.tile 0).activation = some { slot := 0, entry := slot0 } ∧ (s.tile 0).cpu.budget = 0 ∧ (s.tile 0).effect = none := by
  decide

/- TrapsTaken: an error in the word a load reads, and none in what else it reads. -/
theorem witness_upset : Ready (working) 0 ∧ bankFind 5 ((working).tile 0).filling = none ∧ bankFind 5 ((working).tile 0).draining = none ∧
    (working).md.mode = .run := ⟨ready_of (by decide), by decide, by decide, by decide⟩
/- R143: an uncorrectable error ends the activation and makes Safe due; a correctable one is counted and the load goes on. -/
theorem test_memory_error :
    let s (c : Bool) : State := { (working) with upsets := [⟨.data 0 5, c⟩] }
    ((next (execLda 0 1 5 (s false))).tile 0).activation = none ∧ (next (execLda 0 1 5 (s false))).md.safeDue = true ∧
    ((next (execLda 0 1 5 (s true))).die 1).correctable = 1 ∧ (core0 (execLda 0 1 5 (s true))).pc = 0o102 := by decide +kernel

/-! ## States that meet the premises: hold, rings, mailboxes and locks -/

/- HoldCommands: breakpoints not armed and armed in Run; a debugger's breakpoint at the PC. -/
theorem witness_breakpoints :
    Ready (withSetup [(0o420, 1)] (working)) 0 ∧ bitOf ((withSetup [(0o420, 1)] (working)).setupTickOr 0o420 1) 1 = false ∧
    Ready (withSetup [(0o420, 3)] (working)) 0 ∧ bitOf ((withSetup [(0o420, 3)] (working)).setupTickOr 0o420 1) 1 = true ∧
    (let s := withSetup [(0o430, 0o400_100), (0o440, 0)] (working)
     s.setupOr 0o430 0 = 0o400_100 ∧ bitsOf (s.setupOr 0o440 0) 4 0 = 0 ∧ s.md.mode = .run ∧ s.arch.lstate ≠ 5 ∧
       (s.tile 0).effect = none ∧ (s.tile 0).cpu.pc = (0o400_100#18).setWidth 17) :=
  ⟨ready_of (by decide), by decide, ready_of (by decide), by decide, by decide⟩

/-- The bench in Hold with tile 0's activation stopped. -/
def held : State :=
  (benchIn .hold).setTile 0 { activation := some { slot := 0, entry := slot0, opened := true, stopped := true } }

theorem witness_hold :
    meets held 0 0o052 2 (ask 0o052 0 512 0 0) (fun s1 _ => decide (s1.md.mode = .hold ∧ s1.online.stepping = [] ∧
      (s1.tile 0).activation = some { slot := 0, entry := slot0, opened := true, stopped := true })) = true ∧
    meets held 0 0o053 2 (ask 0o053 0 0 0 0) (fun s1 _ => decide (s1.md.mode = .hold ∧ s1.online.stepping = [])) = true ∧
    meets held 0 0o054 2 (ask 0o054 0 0 0 0) (fun s1 _ => decide (s1.md.mode = .hold)) = true ∧
    meets (benchIn .hold) 0 0o055 2 (ask 0o055 1000 0 0 0) (fun s1 _ => decide (s1.md.mode = .hold ∧ s1.tiles = [] ∧
      s1.online.stepTickTicket = none)) = true := by decide
theorem witness_hold_refused :
    meets bench 0 0o052 2 (ask 0o052 0 1 0 0) (fun s1 _ => decide (s1.md.mode ≠ .hold)) = true ∧
    meets bench 0 0o054 2 (ask 0o054 0 0 0 0) (fun s1 _ => decide (s1.md.mode ≠ .hold)) = true ∧
    meets bench 0 0o055 2 (ask 0o055 1 0 0 0) (fun s1 _ => decide (s1.md.mode ≠ .hold)) = true := by decide
theorem witness_debug_write : ({ held with debugOpen := some 1 } : State).debugOpen.isSome = true ∧ 0 < held.tileCount := by decide

/- RingOwnership: a free ring and one that is the foreman's; an idle ring of its owner; one of another master. -/
theorem witness_ring_ownership : State.reset.foremanRing 0 = true ∧
    (let s := { bench with rings := [] }
     s.reaches 0 = true ∧ s.reaches 1 = true ∧ (s.ring 8).owner = noOwner ∧ s.foremanRing 8 = true) ∧
    (withSetup [(0o001_406, 0)] { bench with rings := [] }).foremanRing 8 = false ∧
    (bench.ring 8).owner = 0 ∧ (bench.ring 8).busy = false ∧ (bench.ring 8).queue = [] ∧ (bench.ring 8).flight = [] ∧
    (bench.ring 8).cpi = (bench.ring 8).cci ∧ (bench.ring 8).owner ≠ 1 := by decide

/-- Ring 0 of the host link with four descriptors out, one of them fetched. -/
def busyRing : State :=
  bench.setRing 0 { owner := 1, en := true, log2s := 4, cpi := 44, cci := 42, qpi := 41, qci := 40
                    flight := [⟨0, .ring 9, 7⟩] }

/- Doorbells, CreditsStayInBounds: an idle ring, a write back and one forward; a ring in reset. -/
theorem witness_doorbells : (busyRing.ring 0).owner = 1 ∧ (busyRing.ring 0).busy = false ∧ busyRing.reaches 1 = true ∧
    min ((41 + 65536 - 40) % 65536) 16 < (44 + 65536 - 40) % 65536 ∧ (44 + 65536 - 40) % 65536 ≤ min ((60 + 65536 - 40) % 65536) 16 := by
  decide
theorem witness_credits : (∀ k, k < 9 → (busyRing.ring k).log2s ≤ 12 ∧ (busyRing.ring k).cpi < 65536 ∧
    ((busyRing.ring k).cpi + 65536 - (busyRing.ring k).qci) % 65536 ≤ 2 ^ (busyRing.ring k).log2s ∧
    ((busyRing.ring k).qpi + 65536 - (busyRing.ring k).qci) % 65536 ≤ ((busyRing.ring k).cpi + 65536 - (busyRing.ring k).qci) % 65536) := by
  decide

/- FetchAndReset: a defined and an undefined CODE; a reset with one descriptor waiting, and its end. -/
theorem witness_fetch : 0o030 ∈ definedCodes 0 ∧ 0o777 ∉ definedCodes 0 ∧
    (let g := { busyRing.ring 0 with flight := [] }
     g.en = true ∧ g.busy = false ∧ g.cpi ≠ g.cci ∧ g.queue.length < 8 ∧ g.owner = 1 ∧ g.flight = []) := by decide
theorem witness_reset : let g : Ring := { owner := 1, en := true, queue := [⟨.ring 3, (ask 0o030 3 0 0 0).desc, []⟩] }
    let s := bench.setRing 0 g
    (s.ring 0).owner = 1 ∧ (s.ring 0).cpi = (s.ring 0).cci ∧ (s.ring 0).flight = [] ∧ s.cans = [] ∧ s.reaches 1 = true ∧
      ((bench.setRing 0 { g with queue := [], busy := true }).ring 0).disabling = false := by decide

/- OneCompletion: a ticket in flight of a ring slot, a session and a tile's task, and one that is not. -/
theorem witness_completion : (⟨0, .ring 9, 7⟩ : Ticket) ∈ (busyRing.ring 0).flight ∧ (⟨0, .ring 8, 7⟩ : Ticket) ∉ (busyRing.ring 0).flight ∧
    (∀ k ∈ [(⟨3, .session 1, 7⟩ : Ticket), ⟨3, .tile 27 255, 7⟩],
      k ∈ ((bench.setRing 3 { owner := 0, flight := [k] }).ring k.ring).flight) := by decide

/-- The bench with an operator's session. -/
def operators : State := { bench with sessions := [⟨1, { maker with role := 1 }⟩], clock := { ostop := true } }

/- RightsChecked: a request taken without its right: an operator asks for what installers may, and one of no role for what
operators may. -/
theorem witness_denied :
    (∀ r ∈ [0, 1, 5, 6, 7, 8], lacks operators r 0o040 2 (ask 0o040 0 0 0 0) = true) ∧
    lacks operators 1 0o060 2 (ask 0o060 0 4 0 0) = true ∧ lacks operators 0 0o226 3 (ask 0o226 1 0 0 0) = true ∧
    (∀ r ∈ [0, 1, 2, 3, 4, 5, 6, 7, 8],
      lacks { operators with sessions := [⟨1, { maker with role := 0 }⟩] } r 0o170 1 (ask 0o170 0 0 0 0) = true) ∧
    (operators.can 7).pending.length < 16 := by decide

/-- Channel 5 of R282 between the foreman and the host link, both directions as given. -/
def mailbox (x y : Direction) : State :=
  bench.setChannel 5 { bind := ⟨0, 1, false, true, 0, 0⟩, dirX := x, dirY := y }

/- Mailboxes: a free direction and one with a message, of its sender, its receiver and an orphan; a withdrawal asked for. -/
theorem witness_mailbox : let s := mailbox {} { go := true }
    (s.channel 5).bind.usable s.tileCount = true ∧ (s.channel 5).sender false = 0 ∧ ((s.channel 5).dir false).go = false ∧
    ((s.channel 5).dir true).go = true ∧ (s.channel 5).receiver false = 1 ∧ (s.channel 5).receiver true = 0 ∧
    s.reaches 0 = true ∧ s.reaches 1 = true ∧ (bench.channel 31).bind.usable bench.tileCount = false := by decide
theorem witness_withdrawal :
    (let d := ((mailbox { go := true, orphan := true } {}).channel 5).dir false; d.go = true ∧ d.orphan = true) ∧
    (let d := ((mailbox { wresPending := true } {}).channel 5).dir false; d.wresPending = true) ∧
    (let d := ((mailbox { wresReady := true, wresAsker := 0 } {}).channel 5).dir false; d.wresReady = true ∧ d.wresAsker = 0) ∧
    (let d := ((mailbox { rclm := true, rclmShow := true } {}).channel 5).dir false; d.rclmShow = true) := by decide
theorem witness_bindings :
    meets bench 0 0o100 2 (ask 0o100 30 0o000_100 0 0) (fun s1 q => decide (min 31 q.desc.a0.toNat ≠ 31) && s1.bindingFits 30 ⟨0, 1, false, false, 0, 0⟩) = true ∧
    meets bench 0 0o100 2 (ask 0o100 31 0 0 0) (fun _ q => decide (min 31 q.desc.a0.toNat = 31)) = true ∧
    bench.md.mode.powered = true := by decide
theorem witness_binding_refused : let b : Binding := ⟨8, 0, false, true, 0o077_000, 0o077_000⟩
    bench.bindingFits 30 b = false := by decide

/- Locks: a free lock with its mark read by two; a held one; a claim waiting; the highest lock. -/
theorem witness_locks : (bench.lock 63).owner = noOwner ∧ (∀ x ∈ [0, 1], 0 ≤ x) ∧ (∀ x ∈ [0, 1], bench.reaches x = true ∨ x = 2) ∧
    ((bench.setLock 63 { owner := 1, claims := [4] }).lock 63).claims = [4] ∧ ((bench.setLock 63 { owner := 1 }).lock 63).owner ≠ 0 := by
  decide

/- Revocation: an identity that holds a lock, a ring and a pending message. -/
theorem witness_revocation : let s := (mailbox { go := true } {}).setLock 12 { owner := 0 }
    Tbl.wf {} s.locks = true ∧ Tbl.wf {} s.channels = true ∧ s.md.mode.powered = true ∧ (s.lock 12).owner = 0 ∧ (s.lock 12).claims = [] ∧
    (s.ring 8).owner = 0 ∧ (s.channel 5).bind.x = 0 ∧ (s.channel 5).dirX.go = true := by decide

/- FetchAndReset: a channel without room for the frame that the next descriptor names. -/
theorem witness_fetch_full : let s := { bench with cans := [(7, { pending := List.replicate 16 { ticket := ⟨2, .ring 0, 7⟩, ide := false, rtr := false, fdf := false, brs := false, oneshot := false, echo := false, dlc := 8, id := 0, words := [], aborting := false } })] }
    16 ≤ (s.can (bitsOf (7 : Word) 2 0)).pending.length := by decide

/-! ## States that meet the premises: registers, clock, watchdog, power, modes, ticks -/

/- PeriodCommits, RegisterWrites: an installer in Stop, with LOCK 0 and 1; no right; another mode. -/
theorem witness_setup_write : (benchIn .stop).reaches 0 = true ∧ ((benchIn .stop).writer 0 (some 1)).right = 3 ∧
    ((benchIn .stop).writer 0 none).right = 0 ∧ ((benchIn .stop).writer 1 none).right = 0 ∧ bench.md.mode ≠ .stop ∧
    (benchIn .stop).work.setup.lock = false ∧ ({ lock := true } : TickSetup).lock = true := by decide

/- LatchedReads: each master that reaches the low words; the debug port while it is open; the island its own. -/
theorem witness_latched : (∀ m ∈ [0, 1], ∀ i ∈ [0o000_206, 0o000_301, 0o000_403, 0o000_602, 0o012_003, 0o012_005, 0o013_400, 0o013_411,
      0o013_413, 0o014_401], bench.reachesReg m i = true) ∧
    bench.reachesReg 2 0o012_003 = true ∧ ({ bench with debugOpen := some 1 } : State).reachesReg 3 0o000_206 = true := by decide

/- TimePasses: the last second of the range and one before; a running watchdog. -/
theorem witness_time : bench.clock.sub % 8 = 0 ∧ bench.clock.sec * 2 ^ 15 < 146097 * 86400 * 2 ^ 15 ∧
    146097 * 86400 * 2 ^ 15 ≤ (146097 * 86400 - 1) * 2 ^ 15 + 2 ^ 15 ∧
    Tbl.get none ({ shadows := [(1, some ⟨0, 0, 0, 0⟩)] } : Clock).shadows 1 = some ⟨0, 0, 0, 0⟩ := by decide

/-- The bench with its clock as given. -/
def clocked (c : Clock) : State := { bench with clock := c }

/- ClockSetAndAlarms: no staging; staging by the foreman with nothing, and with time and date; train time locked. -/
theorem witness_clock_set : (clocked {}).clock.halt = false ∧ 2 ≤ ((clocked {}).writer 0 (some 1)).right ∧
    (let c := (clocked { halt := true, stager := 0 }).clock; c.halt = true ∧ c.stager = 0 ∧ c.stTime = none ∧ c.stDate = none ∧ c.stSub = none) ∧
    (let c := (clocked { halt := true, stager := 0, stTime := some 0o120_500, stDate := some 0o037_156 }).clock
     c.halt = true ∧ c.stager = 0 ∧ c.stTime = some 0o120_500 ∧ c.stDate = some 0o037_156 ∧ c.stSub = none) ∧
    (clocked { halt := true, stager := 0 }).clock.stager ≠ 1 := by decide
theorem witness_corrections : let s := { bench with train := { tstate := 2 } }
    s.train.tstate = 2 ∧ s.clock.ostop = false ∧ (-7 : Int).natAbs < 2 ^ 18 ∧ 2 ^ 18 ≤ (262144 : Int).natAbs ∧ s.clock.halt = false ∧
    0 ≤ (s.clock.sec * 2 ^ 18 + s.clock.sub : Nat) + (262144 : Int) ∧ bench.train.tstate ≠ 2 := by decide
theorem witness_alarms :
    (let c := (clocked { alarms := [(1, { date := 0o037_156, time := 0o120_200 })] }).clock
     (c.alarm 1).arm = false ∧ c.sec < (c.alarm 1).sec) ∧
    (let c := (clocked { sec := 2 ^ 33, alarms := [(1, { date := 0o037_156, time := 0o120_200 })] }).clock
     (c.alarm 1).arm = false ∧ (c.alarm 1).sec ≤ c.sec) ∧
    (let c := (clocked { alarms := [(1, { date := 0o037_156, time := 0o120_200, arm := true })] }).clock; (c.alarm 1).arm = true) := by decide

/-- The bench with its watchdog running since `c` periods. -/
def guarded (c : Nat) : State := { bench with watchdog := { run := true, c := c } }

/- WatchdogService, WatchdogExpires: a service in the window, before it opens and after it closes; a watchdog expired. -/
theorem witness_watchdog :
    (∀ c, (guarded c).watchdog.run = true ∧ (guarded c).watchdog.expired = false ∧ (guarded c).watchdog.srcf = true ∧ (guarded c).reaches 0 = true) ∧
    (let w := (guarded 0).watchdog
     (guarded (w.closes - 1)).watchdog.c < w.closes ∧ w.opens ≤ w.closes - 1 ∧ (w.opens = 0 ∨ (guarded (w.opens - 1)).watchdog.c < w.opens) ∧
       w.closes ≤ (guarded w.closes).watchdog.c) ∧
    ({ expired := true } : Watchdog).expired = true := by
  refine ⟨fun c => ⟨rfl, rfl, rfl, rfl⟩, by decide, by decide⟩

/-- What a start finds on a module with both feeds. -/
def found (v : Nat) : StartInputs := { onStart with voltsA := v, hold := 1200, slotBOk := false }

/- PowerUpAndSeal: feeds at the limit and below it; a seal under way with one point outstanding. -/
theorem witness_power_up : State.reset.md.mode = .off ∧ 168 ≤ (found 168).voltsA ∧ (found 167).voltsA < 168 ∧ (found 167).voltsB < 168 ∧
    (benchIn .backup).md.mode = .backup ∧
    (let s := { benchIn .start with firmware := { slotA := none, failed := true } }
     s.firmware.failed = true ∧ s.firmware.slotA = none ∧ s.firmware.slotB = none ∧ s.md.mode = .start) := by decide

/-- A consistency point of Run. -/
def point : Point := ⟨5, 4999999, 0, 0, 0, 0, .run, 0, {}⟩

/-- The bench in Seal, entered from Run. -/
def sealing : State :=
  { bench with md := { mode := .seal, sealFrom := some .run }, persist := { serial := 5, outstanding := [point] } }

theorem witness_seal : sealing.md.mode = .seal ∧ sealing.md.sealFrom = some .run ∧
    sealing.persist.outstanding.getLast? = some point ∧ sealing.pages.busy = false := by decide

/- RideThrough: PFAIL clear and set, in Run, in Start, in Service; a failed bank. -/
theorem witness_ride : bench.power.pfail = false ∧ bench.md.mode ≠ .start ∧ bench.power.failed = false ∧ bench.md.mode.powered = true ∧
    (benchIn .start).md.mode.powered = true ∧ bench.md.sealDue = false ∧ bench.md.mode ≠ .seal ∧ bench.md.mode.ticks = true ∧
    (benchIn .service).md.mode.powered = true ∧ ({ bench with power := { pfail := true } } : State).power.pfail = true := by decide

/- PowerMeasured: V_SR itself and one below; the ends of the temperature classes; each domain; a retry owed. -/
theorem witness_measured : bench.vSr = 292 ∧ 291 < bench.vSr ∧ bench.vSr ≤ 292 := by decide +kernel
theorem witness_domains : (∀ d ∈ [1, 2, 3, 4, 5, 6, 7, 8, 9], bench.domainOn d = true) ∧ bench.variant = 2 ∧
    (let s := { bench with power := { retry := [(6, true)] } }; Tbl.get false s.power.retry 6 = true ∧ s.md.mode ≠ .seal ∧ s.md.sealDue = false) := by
  decide

/- ModeRequested: Stop by an operator, Hold by an installer, Safe asked for, BUSY while Safe is due, Hold without the right. -/
theorem witness_mode_request :
    meets bench 0 0o030 0 (ask 0o030 3 0 0 0) (fun s1 q => decide (s1.md.mode = .run ∧ s1.arch.lstate = 6 ∧ s1.transitionDue = false ∧
      q.desc.a0.toNat % 16 = 3 ∧ 1 ≤ s1.rightOf 0 q.origin)) = true ∧
    meets bench 0 0o030 0 (ask 0o030 5 0 0 0) (fun s1 q => decide (s1.transitionDue = false ∧ q.desc.a0.toNat % 16 = 5 ∧ 2 ≤ s1.rightOf 0 q.origin)) = true ∧
    meets bench 0 0o030 0 (ask 0o030 12 0 0 0) (fun s1 q => decide (s1.transitionDue = false ∧ 12 ≤ q.desc.a0.toNat % 16)) = true ∧
    meets { bench with md := { mode := .run, safeDue := true } } 0 0o030 0 (ask 0o030 3 0 0 0) (fun s1 _ => s1.transitionDue) = true ∧
    meets operators 0 0o030 0 (ask 0o030 5 0 0 0) (fun s1 q => decide (s1.transitionDue = false ∧ q.desc.a0.toNat % 16 = 5 ∧ s1.rightOf 0 q.origin < 2)) = true := by
  decide

/- BoundaryOrder: a quiet boundary in Stop; Seal and Safe due. -/
theorem witness_boundary : let s := { benchIn .stop with arch := { lstate := 6 } }
    s.md.mode = .stop ∧ s.arch.lstate = 6 ∧ s.md.tasksRun = false ∧ s.md.sealDue = false ∧ s.md.safeDue = false ∧ s.md.requests = [] ∧
      s.md.waitsForPartner = false ∧ s.firmware.armed = none ∧ s.online.staged = none ∧ s.tiles = [] ∧
      Tbl.wf none s.work.mortar.outNew = true := by decide
theorem witness_precedence : let s := { bench with md := { mode := .run, sealDue := true, safeDue := true } }
    s.md.mode.ticks = true ∧ s.arch.lstate ≠ 4 ∧ s.md.sealDue = true ∧ s.md.safeDue = true ∧ s.md.mode ≠ .safe := by decide

/-- The bench at the end of Start: the restart kind found, the mode sealed, an election under way or not. -/
def starting (kind : Nat) (m : Option Mode) (electing : Bool) : State :=
  { bench with md := { mode := .start, foundKind := kind, sealedMode := m }, power := { srok := true }, arch := { lstate := 6, electing := electing } }

theorem witness_start : (starting 2 none false).md.mode = .start ∧ (starting 2 none false).power.srok = true ∧
    bitOf (withSetup [(0o101, 0)] (starting 2 none false)).mdCfg 1 = false ∧
    (starting 0 (some .stop) true).md.sealedMode = some .stop ∧ (starting 0 (some .stop) true).arch.electing = true ∧
    (starting 2 none false).firmware.failed = false ∧ (starting 2 none false).online.staged = none ∧
    (starting 2 none false).md.startFault = false ∧ (starting 2 none false).md.safePending = false ∧
    ({ starting 2 none false with power := {} } : State).power.srok = false := by decide

/- ImageAndField: an image not yet closed in Stop; the field side powered in Run and in Service. -/
theorem witness_image : (benchIn .stop).md.imageClosed = false ∧ (benchIn .stop).work.forces = [] ∧ (benchIn .stop).arch.lstate = 6 ∧
    bench.domainOn 8 = true ∧ bench.md.mode.ticks = true ∧ (benchIn .service).md.mode = .service := by decide

/- PowerUpAndSeal: an image accepted, and one with a lower security version; ModeRequested: Service left, Safe acknowledged, Service
entered; BoundaryOrder: an operator's Stop request at its boundary. -/
theorem witness_boot : let m : Manifest := ⟨9, some 1, 1, 0, 0, false, [], 2, true⟩
    bench.makerKey 1 = true ∧ ({ slotA := some m } : Firmware).slot false = some m ∧ m.signer = some 1 ∧ 0 ≤ m.svn ∧ m.svn < ({ svn := 1 } : Firmware).svn := by
  decide
theorem witness_mode_moves :
    meets (benchIn .service) 0 0o030 0 (ask 0o030 3 0 0 0) (fun s1 q => decide (s1.md.mode = .service ∧ s1.transitionDue = false ∧
      q.desc.a0.toNat % 16 = 3 ∧ 2 ≤ s1.rightOf 0 q.origin)) = true ∧
    meets (benchIn .safe) 0 0o030 0 (ask 0o030 3 0 0 0) (fun s1 q => decide (s1.md.mode = .safe ∧ s1.transitionDue = false ∧
      q.desc.a0.toNat % 16 = 3 ∧ 2 ≤ s1.rightOf 0 q.origin)) = true ∧
    meets (benchIn .stop) 0 0o030 0 (ask 0o030 11 0 0 0) (fun s1 q => decide (s1.md.mode = .stop ∧ s1.transitionDue = false ∧
      q.desc.a0.toNat % 16 = 11)) = true := by decide
theorem witness_request_due : let r : ModeRequest := ⟨.stop, .run, false, ⟨0, .session 1, 7⟩, 1, 5, false⟩
    let s := { bench with md := { bench.md with requests := [r] } }
    s.md.requests = r :: [] ∧ s.arch.lstate = 6 ∧ s.watchdog.run = false ∧ s.md.staleDue = false ∧ s.md.stopDue = false ∧
      s.online.holdDue = false ∧ s.firmware.armed = none := by decide

/- StartEnds: a Keystone sealed in Run that claims the lease; the loser of an election whose time is over. -/
theorem witness_start_runs : let s := starting 0 (some .run) false
    s.md.sealedMode = some .run ∧ s.md.foundKind ≠ 2 ∧ s.partnerHolds = false ∧ s.claimed.isSome = true ∧
    (starting 0 (some .run) true).arch.electing = true ∧ (starting 2 none false).md.sealedMode ≠ some .safe := by decide
/- PowerMeasured, PowerUpAndSeal: PD0 and PD1 lost; the service session that ends Service. -/
theorem witness_domains_0 : let s := { bench with power := { on := (List.range 10).map fun d => (d, true) } }
    s.domainOn 0 = true ∧ s.domainOn 1 = true ∧ s.variant = 2 := by decide

/-! ## States that meet the premises: online change, non-volatile memories, links -/

/-- A word force on input word 5. -/
def wordForce : Force := ⟨true, false, 5, 0, 0o123, 0, 0, 2, 0⟩

/- ForcesCommanded: a force set in the last usable word, one refused above it; a force listed; VIEW of each area. -/
theorem witness_forces :
    meets bench 0 0o044 2 (ask 0o044 0o176_777 0 1 0) (fun s1 q => decide (s1.partnerHolds = false ∧ s1.online.staged = none ∧
      s1.stagedAlters true false 0o076_777 0 = false ∧ bitsOf q.desc.a0 17 15 ≤ 1 ∧ bitsOf q.desc.a0 14 0 < 0o077_000 ∧ s1.forcesAhead.length < 1024 ∧
      s1.md.mode.ticks = true)) = true ∧
    meets bench 0 0o044 2 (ask 0o044 0o077_000 0 1 0) (fun _ q => decide (0o077_000 ≤ bitsOf q.desc.a0 14 0)) = true ∧
    meets { bench with work := { forces := [wordForce] } } 0 0o045 2 (ask 0o045 5 0 1 0) (fun s1 q => decide (
      ∃ f ∈ s1.forcesAhead, f.output = decide (bitsOf q.desc.a0 17 15 = 1) ∧ f.index = bitsOf q.desc.a0 14 0 ∧ f.word = q.desc.a2.getLsbD 0)) = true ∧
    meets bench 0 0o045 2 (ask 0o045 5 0 1 0) (fun s1 _ => decide (s1.forcesAhead = [])) = true ∧
    meets bench 0 0o046 2 (ask 0o046 0 0 0 0) (fun s1 _ => s1.md.mode.ticks) = true ∧
    meets (benchIn .service) 0 0o046 2 (ask 0o046 0 0 0 0) (fun s1 _ => !s1.md.mode.ticks) = true := by decide
theorem witness_view :
    meets bench 0 0o050 1 (ask 0o050 0 32704 64 1) (fun _ q => decide (q.desc.a1.toNat + q.desc.a2.toNat ≤ 32768 ∧ q.desc.a2.toNat ≤ 64)) = true ∧
    meets bench 0 0o050 1 (ask 0o050 1 32767 1 0) (fun _ q => decide (q.desc.a1.toNat + q.desc.a2.toNat ≤ 32768 ∧ 1 ≤ q.desc.a2.toNat)) = true ∧
    meets bench 0 0o050 1 (ask 0o050 2 8191 1 0) (fun _ q => decide (q.desc.a1.toNat + q.desc.a2.toNat ≤ 8192)) = true ∧
    meets bench 0 0o050 1 (ask 0o050 3 0 1 0) (fun _ q => decide (3 ≤ q.desc.a0.toNat)) = true ∧
    meets bench 0 0o047 1 (ask 0o047 0 0 0 0) (fun _ _ => true) = true := by decide
/- ForcesAct: a table with a bit force of the same word, and an image in canonical form. -/
theorem witness_forces_act : let g : Force := ⟨false, false, 5, 17, 1, 0, 0, 2, 0⟩
    Tbl.wf 0 [(5, (1 : Word))] = true ∧ g.output = wordForce.output ∧ g.index = wordForce.index ∧ g.word = false ∧ g.bit ≤ 17 ∧
    wordForce.word = true := by decide

/-- A package of one segment. -/
def package (full : Bool) : Package :=
  ⟨full, 0o123456, 0, 1, true, [⟨0, 0o100, List.replicate 3 1⟩], [], [], [], [], ⟨[], [], [], [], []⟩, [], []⟩

/-- A package staged, with the words written, the words it has and its STATE. -/
def stagedAt (full : Bool) (written total state : Nat) (m : Mode) : State :=
  { benchIn m with online := { staged := some ⟨package full, written, total, state, {}, (benchIn m).allocations⟩ } }

/- OnlineChange: staging before its last word, its start, its pause; LOAD, ACTIVATE at once and later, CANCEL, and their refusals. -/
theorem witness_staging : let s := stagedAt false 0 2001 1 .run
    s.persist.lagging = false ∧ s.online.paused = false ∧ 0 + 2000 < 2001 ∧
    (let t := { benchIn .stop with online := { transferred := true } }
     t.online.staged = none ∧ t.online.transferred = true ∧ (package true).full = true ∧
       2 < ((package true).segments.map fun x => x.words.length).sum) ∧
    ({ s with persist := { lagging := true } } : State).persist.lagging = true ∧
    ({ s with arch := { lstate := 5 } } : State).arch.lstate = 5 ∧ bench.domainOn 2 = true ∧ (benchIn .track).md.mode = .track ∧
    (benchIn .track).online.staged = none := by decide
theorem witness_load :
    meets (stagedAt true 3 3 3 .stop) 0 0o042 2 (ask 0o042 0 0 0 0) (fun s1 _ => decide (s1.md.mode = .stop)) = true ∧
    meets (stagedAt true 3 3 3 .run) 0 0o042 2 (ask 0o042 0 0 0 0) (fun s1 _ => decide (s1.md.mode ≠ .stop)) = true := by decide
theorem witness_activate :
    meets (stagedAt false 3 3 3 .run) 0 0o040 2 (ask 0o040 1 1 0 0) (fun s1 q => decide (s1.online.armed = none ∧ s1.md.mode = .run ∧
      s1.online.staged.all (fun g => g.proved = s1.tick ∧ g.provedAllocs = s1.allocations) ∧ q.desc.a0.getLsbD 0 = true ∧ q.desc.a1.toNat = (s1.work.count + 1) % 2 ^ 36)) = true ∧
    meets (stagedAt false 3 3 3 .run) 0 0o040 2 (ask 0o040 1 0 0 0) (fun s1 q => decide (q.desc.a1.toNat = s1.work.count % 2 ^ 36)) = true ∧
    meets (stagedAt false 3 3 2 .run) 0 0o040 2 (ask 0o040 0 0 0 0) (fun s1 _ => s1.online.staged.any fun g => decide (g.state ≠ 3)) = true := by
  decide +kernel
theorem witness_cancel :
    meets bench 0 0o041 2 (ask 0o041 0 0 0 0) (fun s1 _ => decide (s1.online.staged = none)) = true ∧
    meets { stagedAt false 3 3 4 .run with online := { (stagedAt false 3 3 4 .run).online with armed := some ⟨0, .ring 4, 9⟩ } } 0 0o041 2
      (ask 0o041 0 0 0 0) (fun s1 _ => s1.online.staged.isSome && s1.online.armed.isSome) = true := by decide

/- WriteBehindAndRecorder: points outstanding with and without lines left; an event waiting that is new, that repeats the open
record, and that its REP can no longer count. -/
/-- An alarm's event. -/
def event : Event := { code := .given 0o002_102, data := [1, 0, 0, 0] }
/-- Its record. -/
def record0 (rep : Nat) : Record := ⟨0, 0, 0, false, event, rep, 0⟩
/-- A recorder with that record open and the event again in its queue. -/
def recording (rep : Nat) : Recorder :=
  { open_ := true, seq := 1, records := [(0, some (record0 rep))], queue := [⟨event, 262143, 0, 0⟩], opened := [0] }

theorem witness_write_behind : ({ bench with persist := { outstanding := [point] } } : State).persist.outstanding = point :: [] ∧
    point.left = 0 ∧ ({ point with left := 7 } : Point).left ≠ 0 ∧ bench.persist.lagging = false := by decide
theorem witness_recorder : (recording 0).queue = ⟨event, 262143, 0, 0⟩ :: [] ∧ (recording 0).opened = [(record0 0).seq] ∧
    Tbl.get none (recording 0).records ((record0 0).seq % 262144) = some (record0 0) ∧ (record0 262142).rep < 262143 ∧
    (262143 * 2 ^ 18 + 0 - (0 * 2 ^ 18 + 0)) / 2 ^ 18 ≤ 262143 ∧ 262143 ≤ (record0 262143).rep ∧
    (recording 0).find 0 = some (record0 0) ∧ ({ recording 0 with opened := [] } : Recorder).opened = [] := by decide
theorem witness_recorder_commands :
    meets bench 4 0o171 1 (ask 0o171 0o200_000 0 0 0) (fun s1 _ => decide (s1.recorder.open_ = true ∧ s1.recorder.queue.length < 4096)) = true ∧
    meets bench 4 0o170 1 (ask 0o170 0 0 16 0) (fun _ _ => true) = true ∧ meets bench 4 0o172 1 (ask 0o172 0 0 0 0) (fun _ _ => true) = true := by
  decide

/-- The page store is idle. -/
def idlePages (s : State) : Bool := decide (s.pages.jobs = [] ∧ s.pages.busy = false ∧ s.pages.readers = [])

/-- Counter 63 defined at pages 8190 and 8191. -/
def counted : State := { bench with pages := { counters := [(63, some (8190, 2))] } }

/- PagesWritten. -/
theorem witness_page_writes :
    meets bench 5 0o201 2 (ask 0o201 8191 63 1 0) (fun s1 _ => idlePages s1) = true ∧
    meets bench 5 0o203 2 (ask 0o203 8191 0 58 0) (fun s1 _ => idlePages s1) = true ∧
    meets (benchIn .stop) 5 0o204 2 (ask 0o204 63 8190 2 0) (fun s1 q => idlePages s1 && decide (s1.md.mode = .stop ∧
      max 2048 q.desc.a1.toNat + 2 ≤ 8192 ∧ s1.pages.counters = [])) = true ∧
    meets (benchIn .stop) 5 0o204 2 (ask 0o204 63 8191 2 0) (fun _ q => decide (8192 < max 2048 q.desc.a1.toNat + 2)) = true ∧
    meets counted 5 0o205 1 (ask 0o205 63 1 0 0) (fun s1 q => idlePages s1 && decide (min 63 q.desc.a0.toNat = 63) &&
      (s1.pages.counterDef 63 == some (8190, 2)) && decide ((s1.pages.counterAt 8190 2).1 ≠ 2 ^ 36 - 1)) = true ∧
    meets bench 5 0o205 1 (ask 0o205 62 1 0 0) (fun s1 _ => idlePages s1 && (s1.pages.counterDef 62).isNone) = true := by decide +kernel
theorem witness_page_complete :
    let j : PageJob := { owner := 0, ticket := none, work := .words 8191 0 [], pages := [(8191, List.replicate 64 1, 64)] }
    let s := { bench with pages := { busy := true, jobs := [j] } }
    s.pages.busy = true ∧ s.pages.jobs = [{ j with pages := [(8191, List.replicate 64 1, 64)], rclm := false }] ∧ s.pages.readers = [] ∧
      s.pages.forwards = [] ∧ (List.replicate 64 (1 : Word)).length = 64 := by decide

/- PagesReadAndScrubbed. -/
theorem witness_page_reads :
    meets bench 5 0o200 1 (ask 0o200 8191 63 1 0) (fun s1 q => decide (s1.pages.busy = false ∧ q.desc.a0.toNat ≤ 8191 ∧ q.desc.a1.toNat ≤ 63 ∧
      64 * q.desc.a0.toNat + q.desc.a1.toNat + q.desc.a2.toNat ≤ 524288 ∧ s1.pages.undefined = [])) = true ∧
    meets { bench with pages := { undefined := [(7, true)] } } 5 0o200 1 (ask 0o200 7 0 1 0) (fun s1 _ => Tbl.get false s1.pages.undefined 7) = true ∧
    meets bench 5 0o202 1 (ask 0o202 8191 0 0 0) (fun s1 _ => (s1.pages.copy 8190).isNone && (s1.pages.copy 8191).isNone) = true ∧
    meets counted 5 0o206 1 (ask 0o206 63 0 0 0) (fun s1 q => decide (q.desc.a0.toNat ≤ 63) && (s1.pages.counterDef 63 == some (8190, 2))) = true := by
  decide +kernel
theorem witness_scrub : bench.pages.scrub = false ∧
    (let p : PageStore := { scrub := true, scrubPage := 8191 }; p.scrub = true ∧ p.bad p.scrubPage = false ∧ p.jobs = [] ∧ p.busy = false) ∧
    ({ scrub := true, scrubPage := 8190 } : PageStore).scrubPage < 8191 ∧ ({ appendDue := true } : PageStore).appendDue = true ∧
    ({ bench with arch := { lstate := 3 } } : State).arch.lstate = 3 ∧
    (let fw : ForwardedWrite := ⟨⟨5, .ring 0, 7⟩, .words 2048 0 [], none, false⟩
     ({ forwards := [fw] } : PageStore).forwards = [fw] ∧ fw.confirmed = false ∧ ({ fw with own := some (3, 0) } : ForwardedWrite).own = some (3, 0)) := by
  decide
/-- A page store with the two copies of a parameter block in pages 8190 and 8191. -/
def twoCopies : PageStore :=
  { words := Tbl.setMany 0 (Tbl.setMany 0 [] (64 * 8190) (copyWords 3 1 [5])) (64 * 8191) (copyWords 4 1 [5]) }

theorem crc_of_copy (h : List Word) (n : h.length = 62) :
    (h ++ [crc18 h, validMark]).getD 62 0 = crc18 ((h ++ [crc18 h, validMark]).take 62) := by
  rw [show (h ++ [crc18 h, validMark]).take 62 = h by rw [← n]; simp]
  simp [List.getD_eq_getElem?_getD, n]

/- PagesReadAndScrubbed: both copies of a parameter block readable, the second newer. -/
theorem witness_block_copies : twoCopies.copy 8190 = some (3, 1, [5]) ∧ twoCopies.copy 8191 = some (4, 1, [5]) := by
  have h : ∀ seq, (copyWords seq 1 [5]).getD 62 0 = crc18 ((copyWords seq 1 [5]).take 62) := by
    intro seq; exact crc_of_copy ([lowWord seq, highWord seq, word (1 * 2 ^ 12 + 1)] ++ [5] ++ List.replicate 58 0) (by simp)
  have n : ∀ seq, (copyWords seq 1 [5]).length = 64 := fun seq => by simp [copyWords]
  have page : ∀ (m : Tbl Word) (seq i : Nat), Tbl.getMany 0 (Tbl.setMany 0 m i (copyWords seq 1 [5])) i 64 = copyWords seq 1 [5] :=
    fun m seq i => by have e := Tbl.getMany_setMany 0 (copyWords seq 1 [5]) m i; rwa [n] at e
  have h1 : twoCopies.page 8190 = copyWords 3 1 [5] := by
    unfold PageStore.page twoCopies
    dsimp only
    rw [Tbl.getMany_setMany_of_outside 0 _ _ _ 64 (64 * 8190) (.inl (by decide)), page]
  have h2 : twoCopies.page 8191 = copyWords 4 1 [5] := by
    unfold PageStore.page twoCopies
    dsimp only
    rw [page]
  constructor
  · unfold PageStore.copy
    rw [h1, if_neg (by decide), if_pos ⟨rfl, h 3⟩]; rfl
  · unfold PageStore.copy
    rw [h2, if_neg (by decide), if_pos ⟨rfl, h 4⟩]; rfl
/- CalendarCounts: the first and the last day of the range, and a leap day. -/
theorem witness_calendar : daysOf 2000 1 1 = 0 ∧ daysOf 2399 12 31 = 146096 ∧ daysOf 2000 3 1 = 60 ∧ daysOf 2100 3 1 = daysOf 2100 2 28 + 1 := by
  decide

/-- Link 15 native, up, with one station at position 0. -/
def lined (m : Mode) : State :=
  (withSetup [(0o002_000 + 4 * 240, 0o400_000), (0o000_527, 0o400_403)] (benchIn m)).setLink 15 { up := true }

/-- A block of that station. -/
def block (valid : Bool) (sepoch : Nat) : IBlock := ⟨0, valid, false, false, false, 8120, sepoch, []⟩

/- StationLinks: a native link that is up, in Run and in Track, with and without a relay; blocks accepted, not valid, above the
epoch; a Lintel link before its poll and while it polls. -/
theorem witness_links : (lined .run).linkNative 15 = true ∧ (lined .run).md.mode.ticks = true ∧ ((lined .run).link 15).up = true ∧
    (lined .track).linkNative 15 = true ∧ (lined .track).md.mode = .track ∧ ((lined .track).link 15).relayIn = none ∧
    (((lined .track).setLink 15 { up := true, relayIn := some ⟨15, 0, 0, false, []⟩ }).link 15).relayIn = some ⟨15, 0, 0, false, []⟩ ∧
    (block true 0).sepoch ≤ (lined .run).viewEpoch ∧ (lined .run).viewEpoch < (block true 1).sepoch ∧ (block false 0).valid = false ∧
    (let s := (withSetup [(0o002_000 + 4 * 240, 0o400_000), (0o000_527, 0o200_403)] bench).setLink 15 { up := true }
     s.linkMode 15 = 1 ∧ (s.link 15).up = true ∧ (s.link 15).polling = false ∧ s.positions 15 = [0]) ∧
    ((bench.setLink 15 { polling := true, rack := 0 }).link 15).polling = true ∧ 255 + [(7 : Word)].length ≤ 256 := by decide +kernel
theorem witness_services :
    meets (withSetup [(0o000_527, 0o400_403)] bench) 1 0o060 2 (ask 0o060 240 3 0 1) (fun s1 q => s1.holds &&
      decide (min 255 q.desc.a0.toNat / 16 = 15 ∧ s1.linkMode 15 = 2 ∧ s1.md.mode.ticks = true) && s1.acyclicFits 15 3 1 (400 * (s1.tick.inwin + 10))) = true ∧
    meets bench 1 0o060 1 (ask 0o060 240 1 0 1) (fun s1 _ => decide (s1.linkMode 15 ≠ 2)) = true ∧
    meets bench 1 0o061 2 (ask 0o061 255 255 1 0) (fun s1 _ => idlePages s1) = true ∧
    meets bench 1 0o062 1 (ask 0o062 255 0 0 0) (fun _ _ => true) = true ∧
    (let a : Acyclic := ⟨⟨1, .ring 0, 7⟩, 0, 1, 0, 0, [], 0, 3, true⟩
     a.out = true ∧ 3 ≤ a.tries ∧ ({ a with tries := 2 } : Acyclic).tries < 3 ∧ bench.holds = true ∧ bench.md.imageClosed = true) := by
  decide +kernel

/-! ## States that meet the premises: arch, networks, channels -/

/-- A Keystone of an arch, side 1, in a mode and a lease state. -/
def arched (m : Mode) (l : Nat) : State := { k2 with md := { mode := m }, arch := { k2.arch with lstate := l } }

/-- What a partner that matches shows. -/
def partner : PairingFacts :=
  { verifies := true, fingerprint := 0, levelOk := true, arch := true, side := false, epoch := 36, period := 1000, latch := 20, inwin := 60,
    lock := false, etype := 0x88B5, linkCfg := [], stations := [], tiles := 28, tableTiles := [], level := tileFeature 0 {} 0,
    linkA := true, linkB := false, delayA := 3, delayB := 3 }

/- ArchPartners. -/
theorem witness_partners : (arched .run 5).pairingFault partner = none ∧ partner.linkA = true ∧
    (arched .run 5).arPeer ≠ { partner with fingerprint := 9 }.fingerprint ∧ (arched .run 5).firmware.marked = false ∧
    (arched .run 5).domainOn 2 = true ∧ (arched .run 5).aliveOut = true ∧ (arched .run 6).arch.paired = true ∧
    (arched .run 6).cellsOpen = false ∧ (arched .track 1).arch.lstate = 1 ∧ (arched .track 2).arch.lstate = 2 ∧
    ({ heard := true } : Arch).heard = true ∧ ({ dirtyLeft := some 0 } : Arch).dirtyLeft = some 0 ∧
    ({ dirtyLeft := some 1 } : Arch).dirtyLeft = some (0 + 1) ∧ (List.replicate 96 (0 : Word)).length = 96 := by decide +kernel
theorem witness_health :
    meets { bench with arch := { lstate := 6, report := [1] } } 0 0o070 1 (ask 0o070 0 0 0 0) (fun s1 _ => decide (s1.arch.report ≠ [])) = true ∧
    meets { bench with arch := { lstate := 6, peerReport := [1], peerAge := 2 } } 0 0o070 1 (ask 0o070 1 0 0 0) (fun s1 _ =>
      decide (s1.arch.peerReport ≠ [] ∧ s1.arch.peerAge ≤ 2)) = true ∧
    meets { bench with arch := { lstate := 6, peerReport := [1], peerAge := 3 } } 0 0o070 1 (ask 0o070 1 0 0 0) (fun s1 _ =>
      decide (2 < s1.arch.peerAge)) = true := by decide

/- ArchLease: ALIVE_IN low and high; the epoch at its end; a holder with its ledger sent; a takeover due. -/
theorem witness_lease : (arched .track 3).arch.tinPassed = false ∧ (arched .track 3).arch.aliveIn = false ∧
    ({ aliveIn := true } : Arch).aliveIn = true ∧ max 35 (max 36 36) + 2 < 2 ^ 36 ∧ 2 ^ 36 ≤ (2 ^ 36 - 1) + 1 ∧
    (arched .run 5).arch.lstate = 5 ∧ ({ arched .run 5 with md := { mode := .run, sealDue := true } } : State).releaseDue = true ∧
    (arched .track 2).arch.ledgerDone = false ∧ ({ ledgerSent := true } : Arch).ledgerSent = true ∧
    (arched .track 2).online.staged = none ∧ (arched .track 4).md.mode = .track ∧ (arched .track 4).arch.lstate = 4 ∧
    (arched .track 4).tiles = [] ∧ (arched .track 4).watchdog.run = false ∧ (arched .track 4).arch.relayMissed = false := by decide
theorem witness_ledger : let s := arched .track 2
    ∃ c : LedgerClose, s.closeChecks c = true ∧ ∃ d : LedgerClose, d.tick ≠ s.work.count % 2 ^ 36 :=
  ⟨⟨0, 36, 0, 0, ledgerCheck [] 0 36 0 0⟩, by decide +kernel, ⟨1, 0, 0, 0, 0⟩, by decide⟩

/-- A ring link 15 of an arch's Keystone in a mode and a lease state, with the partner paired. -/
def ringed (m : Mode) (l : Nat) : State :=
  { (withSetup [(0o000_600, 0o600_000), (0o002_000 + 4 * 240, 0o400_000), (0o000_527, 0o500_403)] (benchIn m)).setLink 15 { up := true } with
    arch := { lstate := l, paired := true } }

/- StationLinks: a port that turns ring copies; its partner's forms; AcyclicServices: the partner's end, and a request on the line. -/
theorem witness_ring_link : (ringed .run 5).linkRing 15 = true ∧ (ringed .run 5).slEtype = 0x88B5 ∧ (ringed .run 5).portsOn = true ∧
    (ringed .run 5).md.mode.ticks = true ∧ ((ringed .run 5).link 15).up = true ∧ (ringed .track 2).archOn = true ∧
    (ringed .track 2).holds = false ∧ (ringed .track 2).linkNative 15 = true ∧ (ringed .run 5).holds = true ∧
    (ringed .run 5).acyclicFits 15 1 0 (400 * ((ringed .run 5).tick.inwin + 10)) = true ∧
    400 * ((ringed .run 5).tick.inwin + 10) ≤ 400 * 70 := by decide +kernel

/-- Entry 511 of the telegram table: a TRDP subscription of 4 octets, or a publication, an MVB source or sink. -/
def tabled (kind : Nat) : State :=
  let t := Tbl.setMany 0 [] (8 * 511) [word (kind * 2 ^ 16), 5, 0, 100, if kind ≤ 1 then 4 else 0, 3, 0, 0]
  { withSetup [(0o010_000, 0o456_000)] bench with train := { table := t, due := [511] } }

/- TrainNetworks: each kind of entry, a timeout at K ticks, a full and a free receive ring, a reply waited for. -/
theorem witness_telegrams : ((tabled 1).telegram 511).k ≠ 0 ∧ ((tabled 1).telegram 511).receives = true ∧
    (tabled 1).telegramServed ((tabled 1).telegram 511) = true ∧ ((tabled 1).telegram 511).train = false ∧
    ((tabled 1).telegram 511).k ≤ ({ age := 2 } : Subscription).age + 1 ∧ ({ age := 1 } : Subscription).age + 1 < ((tabled 1).telegram 511).k ∧
    (tabled 0).train.due = 511 :: [] ∧ ((tabled 0).telegram 511).kind = 0 ∧
    ((tabled 2).telegram 511).kind = 2 ∧ ((tabled 2).telegram 511).id % 4096 = 5 ∧
    (tabled 2).telegramServed ((tabled 2).telegram 511) = true ∧ (tabled 2).sends = true ∧ (tabled 2).domainOn 6 = true ∧
    (tabled 2).tnCfg.getLsbD 10 = true ∧ (tabled 2).train.messages.full = false ∧
    ({ entries := List.replicate 64 [] } : RxRingState).full = true := by decide +kernel
theorem witness_table_used : usedEntries (tabled 2).train.table = [511] := by decide +kernel
theorem witness_messages : let r : MdRequest := ⟨⟨8, .ring 0, 7⟩, 9, 1, []⟩
    ({ requests := [r] } : Train).requests = [r] ∧ (8 : Word) ≠ r.ticket.tag ∧
    meets bench 8 0o110 1 (ask 0o110 0 9 0 1) (fun _ q => decide (q.desc.a0 = 0)) = true ∧
    meets bench 8 0o110 1 (ask 0o110 1 9 0 1) (fun _ q => decide (q.desc.a0 ≠ 0)) = true ∧
    (∀ r ∈ [2, 3, 8], (bench.ring r).owner = 0 ∧ (bench.ring r).owner ≠ 1) := by decide
theorem witness_table_set :
    meets bench 8 0o112 2 (ask 0o112 511 1 0 0) (fun s1 _ => s1.tableFits (putEntries s1.train.settings 511 1 [])) = true ∧
    bench.tableFits (putEntries [] 511 1 [0o200_000, 5, 0, 0o077_000, 4, 3, 0, 0]) = false := by decide +kernel
theorem witness_topology : bench.etbnOn = true ∧
    (let t : Topology := ⟨2, 2, true, 3, 7, 0, List.replicate 16 0⟩; t.consists ≤ 63 ∧ t.directory.length = 8 * t.consists) ∧
    meets bench 8 0o111 1 (ask 0o111 0 0 0 0) (fun s1 _ => s1.train.applied.isNone) = true := by decide +kernel
theorem witness_train_time : bench.timeSource = 1 ∧ (withSetup [(0o010_002, 0o400_000)] bench).timeSource = 2 ∧
    (withSetup [(0o010_002, 0)] bench).timeSource = 0 ∧ bench.domainOn 6 = true ∧ (-400 : Int).natAbs ≤ 400 ∧ 400 < (401 : Int).natAbs ∧
    (250 : Int).natAbs ≤ 250 ∧ bitsOf bench.tnCfg 15 14 ≠ 0 ∧ (withSetup [(0o010_000, 0o004_000)] bench).tnCfg.getLsbD 11 = true := by decide

/-- CAN channel 7 enabled and in a state; serial channel 7 enabled. -/
def bus (x : Can) (y : Serial := {}) : State :=
  { (withSetup [(0o010_400 + 16 * 7, 0o600_000), (0o011_000 + 16 * 7, 0o500_007)] bench) with cans := [(7, x)], serials := [(7, y)] }

/-- A frame waiting to be sent. -/
def frame : CanTx := ⟨⟨2, .ring 0, 7⟩, false, false, false, false, false, false, 8, 0o3777, [], false⟩

/- BusChannels: CAN frames queued, refused, lost to bus-off, aborted, sent; errors up to bus-off and back. -/
theorem witness_can :
    meets (bus {}) 2 0o120 1 (ask 0o120 7 0 0 0) (fun s1 q => decide (bitsOf q.desc.a0 2 0 = 7 ∧ s1.canEn 7 = true ∧ s1.canListen 7 = false ∧
      s1.canTurns 7 = false ∧ s1.md.mode ≠ .track ∧ (s1.can 7).state ≠ 2 ∧ (s1.can 7).sending = none ∧ (s1.can 7).pending.length < 16)) = true ∧
    meets bench 2 0o120 1 (ask 0o120 7 0 0 0) (fun s1 _ => !s1.canEn 7) = true ∧
    meets (bus { state := 2 }) 2 0o120 1 (ask 0o120 7 0 0 0) (fun s1 _ => decide ((s1.can 7).state = 2)) = true ∧
    16 ≤ ((bus { pending := List.replicate 16 frame }).can 7).pending.length ∧
    meets (bus { pending := [frame] }) 2 0o121 1 (ask 0o121 7 0 0 0) (fun s1 _ => decide ((s1.can 7).pending = [frame] ∧ (s1.can 7).buffers = [])) = true ∧
    meets (bus { state := 2 }) 2 0o122 1 (ask 0o122 7 0 0 0) (fun s1 _ => decide ((s1.can 7).state = 2)) = true ∧
    meets (bus {}) 2 0o122 1 (ask 0o122 7 0 0 0) (fun s1 _ => decide ((s1.can 7).state ≠ 2)) = true := by decide +kernel
theorem witness_can_bus : (let x := (bus { sending := some 0, buffers := [(0, some frame)], tec := 511 }).can 7
     x.sending = some 0 ∧ x.buffers = [(0, some frame)] ∧ x.tec ≤ 511) ∧ frame.aborting = false ∧ frame.echo = false ∧ frame.oneshot = false ∧
    (bus {}).canEn 7 = true ∧ ((bus {}).can 7).state ≠ 2 ∧ ((bus { pending := [frame] }).can 7).pending = [frame] ∧
    ((bus { tec := 95, rec_ := 95 }).can 7).tec < 96 ∧ (bus {}).canRx.full = false ∧ (bus {}).cnImgOn 7 = false ∧
    (let x := (bus { state := 2, recovering := true }).can 7; x.state = 2 ∧ x.recovering = true) := by decide +kernel
theorem witness_serial : let t : SerTx := ⟨⟨3, .ring 0, 7⟩, false, 511, [], false⟩
    meets (bus {}) 3 0o130 1 (ask 0o130 7 511 0 0) (fun s1 q => decide (bitsOf q.desc.a0 2 0 = 7 ∧ s1.serEn 7 = true ∧ (s1.serial 7).active = none)) = true ∧
    meets (bus {} { active := some t }) 3 0o130 1 (ask 0o130 7 1 0 0) (fun s1 _ => decide ((s1.serial 7).active ≠ none)) = true ∧
    meets bench 3 0o130 1 (ask 0o130 7 1 0 0) (fun s1 _ => !s1.serEn 7) = true ∧
    meets (bus {} { active := some t }) 3 0o131 1 (ask 0o131 7 0 0 0) (fun s1 _ => decide ((s1.serial 7).active = some t ∧ (s1.serial 7).pending = [])) = true ∧
    meets (bus {}) 3 0o131 1 (ask 0o131 7 0 0 0) (fun s1 _ => decide ((s1.serial 7).active = none)) = true ∧
    t.aborting = false ∧ t.echo = false ∧ (bus {}).serialRx.full = false ∧ (bus {}).reaches 0 = true ∧ 2 ≤ ((bus {}).writer 0 (some 1)).right := by
  decide +kernel

/- 11_can_and_serial.md, worked example: e0, e1, e2, e3 and the stamp of a frame at 58.4 µs on channel 2, with PHASE in the ring. -/
theorem test_can_entry : let s := withSetup [(0o010_400 + 16 * 2, 0o600_000)] bench
    ((next (execCanFrameReceived 2 ⟨true, false, true, true, false, 9, 27440068, List.replicate 12 0⟩ 4672 s)).canRx.entries.map fun e =>
      [e.getD 0 0, e.getD 1 0, e.getD 2 0, e.getD 3 0, e.getD 6 0, e.getD 7 0]) = [[0o425_411, 0o531_704, 0o000_150, 0o000_014, 0o011_100, 0]] := by
  decide +kernel

/-! ## States that meet the premises: the island, metering, identity -/

/-- The parameters of 12_safety_island_doors.md, "the doors of one car". -/
def carBlock : List Word :=
  [1, 40, 10, 0,
   0o410_200, 5, 0o530_200, 5, 0o420_200, 5, 0o404_100, 2, 0o670_200, 5, 0o700_200, 5, 0, 0, 0, 0,
   0o200_000, 0o204_000, 0o150_000, 0o414_000, 0o322_400, 0, 0, 0, 0o403_400, 0o604_000, 0o610_000, 0]
theorem test_car_block : blockFault carBlock = none ∧ blockFault (carBlock.set 4 0o400_200) = some 4 := by decide +kernel

/- SafetyIslandCycle: the island runs; a usable channel 31 with its message; modes with and without enables. -/
theorem witness_island : bench.islandRuns = true ∧ bench.md.mode = .run ∧ (benchIn .stop).md.mode = .stop ∧
    (let s := bench.setChannel 31 { bind := ⟨2, 0, false, true, 0, 0⟩, dirY := { go := true } }
     (s.channel 31).bind.usable s.tileCount = true ∧ (s.channel 31).dirY.go = true) ∧
    ({ outs := [(3, { on := true })] } : Island).outs = [(3, { on := true })] ∧ ({ activateDue := true } : Island).activateDue = true := by decide
theorem witness_safety :
    meets (benchIn .stop) 0 0o140 2 (ask 0o140 0 0 0 0 carBlock) (fun s1 q => decide (s1.md.mode = .stop) && s1.islandRuns &&
      (blockFault ((List.range 32).map fun i => q.data.getD i 0)).isNone) = true ∧
    meets (benchIn .stop) 0 0o140 2 (ask 0o140 0 0 0 0) (fun _ q => (blockFault ((List.range 32).map fun i => q.data.getD i 0)).isSome) = true ∧
    meets { benchIn .stop with island := { staged := some carBlock } } 0 0o141 2
      (ask 0o141 ((blockCheck carBlock).setWidth 18) ((blockCheck carBlock).extractLsb' 18 18) 0 0) (fun s1 q =>
        decide (s1.island.staged = some carBlock ∧ q.desc.a1 ++ q.desc.a0 = blockCheck carBlock)) = true ∧
    meets (benchIn .stop) 0 0o141 2 (ask 0o141 0 0 0 0) (fun s1 _ => s1.island.staged.isNone) = true ∧
    meets bench 0 0o142 1 (ask 0o142 0 0 0 0) (fun s1 _ => s1.islandRuns) = true ∧
    meets { bench with island := { block := some carBlock } } 0 0o143 1 (ask 0o143 0 0 0 0) (fun s1 _ => s1.island.block.isSome) = true ∧
    meets bench 0 0o150 1 (ask 0o150 0 0 0 0) (fun _ _ => true) = true := by decide +kernel

/- EnergyMeasured: the metering domain on and off; a pulse at its end and before it; the four quadrants. -/
theorem witness_energy : bench.domainOn 9 = true ∧ State.reset.domainOn 9 = false ∧ bench.modulators.skip = 0 ∧ bench.modulators.linkB = false ∧
    ({ linkA := true } : Modulators).linkA = true ∧ 2 * bench.pulseTicks 1 ≤ (2 * bench.pulseTicks 1 - 1) + 1 ∧
    (2 * bench.pulseTicks 1 - 2) + 1 < 2 * bench.pulseTicks 1 ∧ ({ pulses := [(1, { ticks := some 0 })] } : Meter).pulse 1 = { ticks := some 0 } := by
  decide +kernel
theorem witness_energy_commands :
    meets bench 6 0o160 1 (ask 0o160 0 0 0 0) (fun _ _ => true) = true ∧ meets bench 6 0o161 1 (ask 0o161 0 0 0 0) (fun _ _ => true) = true ∧
    meets (benchIn .stop) 6 0o162 2 (ask 0o162 0 0 0 0) (fun s1 _ => decide (s1.md.mode = .stop ∧ s1.partnerHolds = false)) = true ∧
    meets bench 6 0o162 2 (ask 0o162 0 0 0 0) (fun s1 _ => decide (s1.md.mode ≠ .stop)) = true := by decide

/- IdentityAndUpdate: a maker's certificate, acceptable on the service port alone. -/
theorem witness_certificates : bench.certAccepted true maker = true ∧ bench.certAccepted false maker = false ∧
    (∀ r ∈ [0, 8], meets bench r 0o220 0 (ask 0o220 0 0 0 0) (fun s1 _ => s1.certAccepted true maker) = true) ∧
    ({ maker with notBefore := 1 } : Certificate).notBefore = 1 ∧ bench.clock.sec < 1 ∧ bench.clock.ostop = false := by decide
theorem witness_credentials : let s := { bench with identity := { challenges := [(8, some maker)], bound := [(8, some maker)] } }
    meets s 8 0o221 0 (ask 0o221 0 0 0 0) (fun s1 _ => decide (Tbl.get none s1.identity.challenges 8 = some maker)) = true ∧
    meets bench 8 0o221 0 (ask 0o221 0 0 0 0) (fun s1 _ => decide (Tbl.get none s1.identity.challenges 8 = none)) = true ∧
    meets s 8 0o222 0 (ask 0o222 0 0 0 0) (fun _ _ => true) = true ∧ Tbl.get none s.identity.bound 8 = some maker ∧
    bench.sessions.length < 4 ∧ bench.domainOn 2 = true ∧ bench.sessions = [⟨1, maker⟩] := by decide
theorem witness_revoke :
    meets bench 0 0o223 2 (ask 0o223 1 0 0 0) (fun s1 _ => decide (1 ∉ s1.identity.revoked ∧ s1.identity.revoked.length < 252)) = true ∧
    meets { bench with identity := { revoked := List.replicate 252 0 } } 0 0o223 2 (ask 0o223 1 0 0 0) (fun s1 _ =>
      decide (1 ∉ s1.identity.revoked ∧ 252 ≤ s1.identity.revoked.length)) = true ∧
    meets bench 0 0o224 2 (ask 0o224 3 0 0 0) (fun s1 q => decide (q.origin = .session 1 ∧ Tbl.set none s1.identity.anchors 3 (some 9) ≠ [])) = true ∧
    meets { bench with identity := { anchors := [] } } 0 0o224 2 (ask 0o224 0 0 0 0) (fun s1 _ =>
      decide (Tbl.set none s1.identity.anchors 0 none = [])) = true ∧
    meets bench 0 0o225 0 (ask 0o225 0 0 0 0) (fun _ _ => true) = true ∧
    meets bench 0 0o226 3 (ask 0o226 1 0 0 0) (fun _ q => q.desc.a0.getLsbD 0) = true ∧
    meets bench 0 0o226 3 (ask 0o226 0 0 0 0) (fun s1 q => !q.desc.a0.getLsbD 0 && s1.debugOpen.isNone) = true ∧
    meets bench 0 0o227 1 (ask 0o227 62 0 0 0) (fun _ _ => true) = true ∧
    meets bench 0 0o230 2 (ask 0o230 62 0 0 0) (fun s1 _ => idlePages s1) = true := by decide +kernel

/-- A manifest of two blocks, signed by key 1. -/
def image : Manifest := ⟨9, some 1, 1, 0, 0, false, [], 2, true⟩

/-- The bench with a transfer at a block. -/
def receiving (program : Bool) (n : Nat) : State := { bench with firmware := { transfer := some ⟨image, program, n⟩ } }

/- IdentityAndUpdate: a transfer begun, resumed and refused; each block; an image ready. -/
theorem witness_update :
    meets bench 7 0o210 2 (ask 0o210 0 0 0 0) (fun s1 q => decide (q.desc.a0 = 0) && s1.firmware.unfinished.isNone && (s1.manifestFault image).isNone) = true ∧
    meets (receiving false 1) 7 0o210 2 (ask 0o210 0 0 0 0) (fun s1 _ => s1.firmware.unfinished == some ⟨image, false, 1⟩) = true ∧
    ({ image with signer := none } : Manifest).signer = none ∧ bench.makerKey 1 = true ∧
    meets { bench with firmware := { svn := 1 } } 7 0o210 2 (ask 0o210 0 0 0 0) (fun s1 _ => decide (image.svn < s1.firmware.svn)) = true ∧
    meets { bench with online := { transferred := true } } 7 0o210 2 (ask 0o210 1 0 0 0) (fun s1 _ => s1.packageHeld) = true := by decide +kernel
theorem witness_blocks :
    meets (receiving false 0) 7 0o211 2 (ask 0o211 0 0 0 0) (fun s1 q => s1.firmware.unfinished == some ⟨image, false, 0⟩ && decide (q.desc.a0.toNat = 0)) = true ∧
    meets (receiving false 1) 7 0o211 2 (ask 0o211 1 0 0 0) (fun s1 q => s1.firmware.unfinished.isSome && decide (q.desc.a0.toNat + 1 = image.blocks)) = true ∧
    meets (receiving true 0) 7 0o211 2 (ask 0o211 0 0 0 0) (fun s1 _ => s1.firmware.unfinished.any fun t => t.program && decide (t.verified + 1 < t.manifest.blocks)) = true ∧
    meets (receiving true 0) 7 0o211 2 (ask 0o211 1 0 0 0) (fun s1 q => s1.firmware.unfinished.any fun t => decide (q.desc.a0.toNat ≠ t.verified)) = true := by
  decide +kernel
theorem witness_schedule : let s := { bench with firmware := { transfer := some ⟨image, false, 2⟩, slotB := some image, imageIn := true } }
    meets s 7 0o212 2 (ask 0o212 0 0 1 0) (fun s1 _ => s1.firmware.imageReady && decide (s1.utcNow < 0 + 60 * max 1 (min 1440 1))) = true ∧
    meets bench 7 0o212 2 (ask 0o212 0 0 1 0) (fun s1 _ => !s1.firmware.imageReady) = true ∧
    meets { s with setup := [(0o014_403, some 2)] } 7 0o212 2 (ask 0o212 0 0 1 1) (fun s1 _ => s1.firmware.imageReady && decide (s1.updGroup ≠ 0 ∧ 1 ≠ s1.updGroup)) = true ∧
    meets { s with md := { mode := .service }, clock := { sec := 60 } } 7 0o212 2 (ask 0o212 0 0 1 0) (fun s1 _ => decide (0 + 60 ≤ s1.utcNow)) = true ∧
    meets s 7 0o213 2 (ask 0o213 1 0 0 0) (fun _ q => q.desc.a0.getLsbD 0) = true ∧ meets s 7 0o213 2 (ask 0o213 0 0 0 0) (fun _ q => !q.desc.a0.getLsbD 0) = true ∧
    (let f : Firmware := { armed := some ⟨0, 60⟩ }; f.armed = some ⟨0, 60⟩ ∧ f.activating = false) ∧ ({ activating := true } : Firmware).activating = true := by
  decide +kernel

/-- A whole sample period of good frames with all bits 0. -/
def samples : MeterSample := ⟨List.replicate 256 0b1010101010100011, List.replicate 256 0b1010101010100011, 0, 125000, 0, 0⟩
/- EnergyMeasured: every frame good, and one without its sync; both links good. -/
theorem witness_samples : frameGood 0b1010101010100011 = true ∧ frameSync 0b1010101010100010 = false ∧
    samples.framesA.length = 256 ∧ bench.md.mode.ticks = true ∧
    (let d : Modulators := { linkA := true, linkB := true }; d.linkA = true ∧ d.linkB = true ∧ d.skip = 0 ∧ d.frames = []) :=
  ⟨by decide, by decide, List.length_replicate, by decide, by decide⟩
/- IdentityAndUpdate: a session whose credential is accepted; a package's last block in Stop and in Service. -/
theorem witness_sessions : (∃ e ∈ bench.sessions, e.id = 1 ∧ bench.certAccepted true e.cert = true) ∧
    (benchIn .stop).acceptsPackage true = true ∧ (benchIn .service).acceptsPackage true = false ∧
    Tbl.get none bench.identity.bound 8 = none ∧ bench.clock.ostop = false ∧ bench.train.tstate ≠ 2 := by decide

/-! ## The queue, and an invariant's start -/

/- StepsNeverGoBack: a step that takes a command; LegalPart holds at reset. -/
theorem witness_step : State.reset.LegalPart ∧ CoresAgree State.reset ∧ (step { State.reset with pending := [.watchdogLate] } = .next State.reset) :=
  ⟨Nat.le_refl 2, fun _ h => absurd h List.not_mem_nil, rfl⟩
theorem test_idle : step State.reset = .next State.reset := rfl

end Sys2Proof.Tests
end

section
/-!
SUPPORT. Station links (R200–R233): what each command of a link does, said once for each, and the settlement of O47.
-/
namespace Sys2Proof.Machine

open Sys2Proof.Claims

/-! ## Ports and copies (R200, R209–R211) -/

theorem execPortLinkUp_eq {s : State} {k : Nat} (hk : k ≤ 15) (full : Bool) :
    execPortLinkUp k full s = .next (s.setLink k { s.link k with up := full && s.portsOn }) :=
  if_neg (Nat.not_lt.mpr hk)

/-- The form that a copy of one block is turned into is one segment (R205, R209). -/
theorem iFormWords_singleton (h : FormHeader) (o : OBlock) :
    iFormWords h [o] = [FormHeader.words { h with kind := 1, turner := 31 } 0 true 1 ++ emptyIBlock o] := by
  simp [iFormWords, formWords, segments, packInto, List.range_succ]

/-- A block that no station has filled: its header group, then zeros in whole groups (R209). -/
theorem iFormWords_singleton_split (h : FormHeader) (o : OBlock) :
    ∃ head, iFormWords h [o] = [head ++ [BitVec.ofNat 18 (o.pos * 2 ^ 14 + o.iwords), 0, 0, 0] ++
      List.replicate (4 * ((o.iwords + 3) / 4)) 0] ∧ head.length = 8 :=
  ⟨FormHeader.words { h with kind := 1, turner := 31 } 0 true 1,
    by rw [iFormWords_singleton, List.append_assoc]; rfl, rfl⟩

section
variable {s : State} {k : Nat} {c : OForm}

/-- A synchronised port of a ring that may be up turns the copy (R211). -/
theorem execPortTurn_turns (hk : k ≤ 15) (hring : s.linkRing k = true) (het : c.etype = s.slEtype)
    (hup : (s.link k).up = true) (hports : s.portsOn = true) (hticks : s.md.mode.ticks = true) :
    execPortTurn k ⟨true, c⟩ s = .next (s.setLink k { s.link k with
      turned := true, turnFrame := iFormWords c.header c.blocks, wire := s.wireOf k (iFormWords c.header c.blocks) }) := by
  simp [execPortTurn, Nat.not_lt.mpr hk, hring, het, hup, hports, hticks]

/-- A port whose T0 is not held to the other end's takes its link down (R211). -/
theorem execPortTurn_unsynced (hk : k ≤ 15) (hring : s.linkRing k = true) (het : c.etype = s.slEtype)
    (hup : (s.link k).up = true) : execPortTurn k ⟨false, c⟩ s = .next (s.setLink k { s.link k with up := false }) := by
  simp [execPortTurn, Nat.not_lt.mpr hk, hring, het, hup]

/-- The standby's link without a relay of the tick counts a relay missed (R210). -/
theorem execRelayedCopyEmission_missed (hk : k ≤ 15) (hmode : s.md.mode = .track) (hnat : s.linkNative k = true)
    (hin : (s.link k).relayIn = none) : execRelayedCopyEmission k s =
      .next { s with arch := { s.arch with relmiss := true, relayMissed := true } } := by
  simp [execRelayedCopyEmission, Nat.not_lt.mpr hk, hmode, hnat, hin]

/-- The standby's link emits the relayed copy under its own header and OFFSETs (R210). -/
theorem execRelayedCopyEmission_relayed {r : Relay} (hk : k ≤ 15) (hmode : s.md.mode = .track)
    (hnat : s.linkNative k = true) (hin : (s.link k).relayIn = some r) :
    let own := r.blocks.map fun o => { o with offset := (s.station (16 * k + o.pos)).offset }
    let fr := oFormWords (s.header k r.safe r.tick r.epoch) own
    execRelayedCopyEmission k s = .next (s.setLink k { s.link k with frame := fr, wire := s.wireOf k fr, relayIn := none }) := by
  simp [execRelayedCopyEmission, Nat.not_lt.mpr hk, hmode, hnat, hin]

end

/-! ## Relays received (R210) -/

/-- A relay's blocks tell of stations alone. -/
theorem State.takeRelayed_form (s : State) (r : Relay) :
    s.takeRelayed r = { s with stations := (s.takeRelayed r).stations } := by
  unfold State.takeRelayed
  generalize r.blocks = bs
  induction bs generalizing s with
  | nil => rfl
  | cons b bs ih => rw [List.foldl_cons, ih]; rfl

@[simp] theorem State.takeRelayed_link (s : State) (r : Relay) (k : Nat) : (s.takeRelayed r).link k = s.link k := by
  rw [State.takeRelayed_form]; rfl

@[simp] theorem State.takeRelayed_arch (s : State) (r : Relay) : (s.takeRelayed r).arch = s.arch := by
  rw [State.takeRelayed_form]

@[simp] theorem State.takeRelayed_work (s : State) (r : Relay) : (s.takeRelayed r).work = s.work := by
  rw [State.takeRelayed_form]

/-- A relay of one block gives the far OFFSET of its station (R230). -/
theorem State.takeRelayed_singleton {s : State} {r : Relay} {o : OBlock} (h : r.blocks = [o]) :
    s.takeRelayed r = s.setStation (16 * r.link + o.pos)
      { s.station (16 * r.link + o.pos) with offsetFar := o.offset } := by
  simp [State.takeRelayed, h]

@[simp] theorem State.link_setStation (s : State) (k i : Nat) (x : Station) : (s.setStation i x).link k = s.link k := rfl

theorem execRelayReceipt_eq {s : State} {r : Relay} (hk : r.link ≤ 15) (hmode : s.md.mode = .track)
    (harch : s.archOn = true) : execRelayReceipt r s =
      .next { (s.setLink r.link { s.link r.link with relayIn := some r }).takeRelayed r with
        arch := { s.arch with peerEpoch := max s.arch.peerEpoch r.epoch } } := by
  simp [execRelayReceipt, Nat.not_lt.mpr hk, hmode, harch]

/-! ## I-blocks (R213, R214) -/

section
variable (s : State) (k : Nat) (f : IForm) (b : IBlock)

/-- What a block tells of its own station (R214): b0 always, DELTA and OFFSET if it is accepted. -/
def State.toldStation : Station :=
  let st := s.station (16 * k + b.pos)
  if IBlockAccepted s.viewEpoch b then
    { st with b0 := iBlockB0 b, delta := b.delta, offset := if f.forwarded then st.offset else offsetOf f.te f.tr b.delta }
  else { st with b0 := iBlockB0 b }

/-- A block noted: its station, and the greatest SEPOCH seen (R240). -/
def State.noteBlock : State :=
  { s.setStation (16 * k + b.pos) (s.toldStation k f b) with
    arch := { s.arch with maxSepoch := max s.arch.maxSepoch b.sepoch } }

/-- A block of an epoch not above the Keystone's is noted. -/
theorem State.takeBlock_current (h : ¬ s.viewEpoch < b.sepoch) : s.takeBlock k f b = s.noteBlock k f b :=
  if_neg h

/-- A block of an epoch above the Keystone's also marks its link stale, and in Run and Hold the Keystone (R213, R240). -/
theorem State.takeBlock_stale (h : s.viewEpoch < b.sepoch) :
    s.takeBlock k f b =
      if s.md.mode = .run ∨ s.md.mode = .hold then
        { (s.noteBlock k f b).setLink k { s.link k with stale := true } with md := { s.md with staleDue := true } }
      else (s.noteBlock k f b).setLink k { s.link k with stale := true } :=
  if_pos h

/-- Beside the note, a block may write its link and the mode's marks alone. -/
theorem State.takeBlock_form : ∃ l m, s.takeBlock k f b = { s.noteBlock k f b with links := l, md := m } := by
  by_cases h : s.viewEpoch < b.sepoch
  · rw [State.takeBlock_stale s k f b h]
    split
    · exact ⟨_, _, rfl⟩
    · exact ⟨_, _, rfl⟩
  · rw [State.takeBlock_current s k f b h]
    exact ⟨_, _, rfl⟩

theorem State.takeBlock_station (j : Nat) :
    (s.takeBlock k f b).station j = (s.setStation (16 * k + b.pos) (s.toldStation k f b)).station j := by
  obtain ⟨l, m, h⟩ := State.takeBlock_form s k f b
  rw [h]; rfl

theorem State.takeBlock_work : (s.takeBlock k f b).work = s.work := by
  obtain ⟨l, m, h⟩ := State.takeBlock_form s k f b
  rw [h]; rfl

theorem State.takeBlock_maxSepoch : (s.takeBlock k f b).arch.maxSepoch = max s.arch.maxSepoch b.sepoch := by
  obtain ⟨l, m, h⟩ := State.takeBlock_form s k f b
  rw [h]; rfl

theorem State.takeBlock_link_of_current (h : ¬ s.viewEpoch < b.sepoch) : (s.takeBlock k f b).link k = s.link k := by
  rw [State.takeBlock_current s k f b h]; rfl

theorem State.takeBlock_link_of_stale (h : s.viewEpoch < b.sepoch) :
    (s.takeBlock k f b).link k = { s.link k with stale := true } := by
  rw [State.takeBlock_stale s k f b h]
  split <;> exact State.link_setLink _ k _

theorem State.takeBlock_md_of_current (h : ¬ s.viewEpoch < b.sepoch) : (s.takeBlock k f b).md = s.md := by
  rw [State.takeBlock_current s k f b h]; rfl

theorem State.takeBlock_md_of_stale (h : s.viewEpoch < b.sepoch) (hm : s.md.mode = .run ∨ s.md.mode = .hold) :
    (s.takeBlock k f b).md = { s.md with staleDue := true } := by
  rw [State.takeBlock_stale s k f b h, if_pos hm]

theorem State.toldStation_present : (s.toldStation k f b).present = (s.station (16 * k + b.pos)).present := by
  unfold State.toldStation; dsimp only; split <;> rfl

variable {s k f b}

/-- A VALID block of an epoch not above the Keystone's is accepted (R213). -/
theorem State.toldStation_accepted (hvalid : b.valid = true) (hepoch : b.sepoch ≤ s.viewEpoch) : s.toldStation k f b =
    { s.station (16 * k + b.pos) with
      b0 := iBlockB0 b, delta := b.delta
      offset := if f.forwarded then (s.station (16 * k + b.pos)).offset else offsetOf f.te f.tr b.delta } :=
  if_pos (by simp [IBlockAccepted, hvalid, hepoch])

/-- Any other block is not. -/
theorem State.toldStation_refused (h : b.valid = false ∨ s.viewEpoch < b.sepoch) : s.toldStation k f b =
    { s.station (16 * k + b.pos) with b0 := iBlockB0 b } := by
  refine if_neg ?_
  rcases h with hinvalid | habove
  · simp [IBlockAccepted, hinvalid]
  · simp [IBlockAccepted, habove]

end

/-! ## I-form segments (R203, R212) -/

/-- What a link keeps of a segment before its blocks are read (R212, R213). -/
def State.keepForm (s : State) (k : Nat) (f : IForm) : State :=
  s.setLink k { s.link k with
    late := (s.link k).late || f.late, fcsErr := (s.link k).fcsErr || !f.fcsOk
    forms := if s.arch.tinPassed then (s.link k).forms else (s.link k).forms ++ [f]
    forwarded := if s.archOn && !f.forwarded then (s.link k).forwarded ++ [f] else (s.link k).forwarded }

section
variable {s : State} {k : Nat} {f : IForm} {b : IBlock}

/-- A segment of the link's EtherType is received: a forwarded one in an arch, an own copy on a native link. -/
structure Receives (s : State) (k : Nat) (f : IForm) : Prop where
  link : k ≤ 15
  ticks : s.md.mode.ticks = true
  etype : f.etype = s.slEtype
  origin : (if f.forwarded then s.archOn else s.linkNative k) = true

theorem Receives.unblocked (h : Receives s k f) : ¬ (15 < k ∨ (!s.md.mode.ticks) = true ∨ f.etype ≠ s.slEtype ∨
    (if f.forwarded then !s.archOn else !s.linkNative k) = true) := by
  obtain ⟨hk, ht, he, ho⟩ := h
  cases hf : f.forwarded <;> simp_all

theorem execIFormReceipt_good (h : Receives s k f) (hf : f.fcsOk = true) (hb : f.blocks = [b]) :
    execIFormReceipt k f s = .next ((s.keepForm k f).takeBlock k f b) := by
  unfold execIFormReceipt
  rw [if_neg h.unblocked]
  dsimp only
  rw [if_pos hf, hb]; rfl

theorem execIFormReceipt_bad (h : Receives s k f) (hf : f.fcsOk = false) (hb : f.blocks = [b]) :
    execIFormReceipt k f s = .next ((s.keepForm k f).setStation (16 * k + b.pos)
      { s.station (16 * k + b.pos) with badFcs := ((s.station (16 * k + b.pos)).badFcs + 1) % 2 ^ 36 }) := by
  unfold execIFormReceipt
  rw [if_neg h.unblocked]
  dsimp only
  rw [if_neg (by simp [hf]), hb]; rfl

end

section
variable (s : State) (k : Nat) (f : IForm) (b : IBlock)

@[simp] theorem State.keepForm_station (j : Nat) : (s.keepForm k f).station j = s.station j := rfl
@[simp] theorem State.keepForm_toldStation : (s.keepForm k f).toldStation k f b = s.toldStation k f b := rfl

/-- The link's own part of a segment's receipt, whatever its FCS (R212, R213). -/
structure KeepsForm (s' : State) : Prop where
  forms : (s'.link k).forms = if s.arch.tinPassed then (s.link k).forms else (s.link k).forms ++ [f]
  forwarded : (s'.link k).forwarded =
    if s.archOn && !f.forwarded then (s.link k).forwarded ++ [f] else (s.link k).forwarded
  late : (s'.link k).late = ((s.link k).late || f.late)
  fcsErr : (s'.link k).fcsErr = ((s.link k).fcsErr || !f.fcsOk)

/-- A link that is the kept one but for its STALE mark holds what the receipt keeps. -/
theorem KeepsForm.of_link {s' : State} (d : Bool) (h : s'.link k = { (s.keepForm k f).link k with stale := d }) :
    KeepsForm s k f s' := by
  rw [State.keepForm, State.link_setLink] at h
  constructor <;> rw [h]

theorem State.takeBlock_link : ∃ d, (s.takeBlock k f b).link k = { s.link k with stale := d } := by
  by_cases h : s.viewEpoch < b.sepoch
  · exact ⟨_, State.takeBlock_link_of_stale s k f b h⟩
  · exact ⟨_, State.takeBlock_link_of_current s k f b h⟩

theorem keepsForm_takeBlock : KeepsForm s k f ((s.keepForm k f).takeBlock k f b) := by
  obtain ⟨d, h⟩ := State.takeBlock_link (s.keepForm k f) k f b
  exact KeepsForm.of_link s k f d h

theorem keepsForm_setStation (i : Nat) (x : Station) : KeepsForm s k f ((s.keepForm k f).setStation i x) :=
  KeepsForm.of_link s k f ((s.keepForm k f).link k).stale rfl

/-- The station of a block in a good segment (R214). -/
theorem State.takeBlock_keepForm_station_self :
    ((s.keepForm k f).takeBlock k f b).station (16 * k + b.pos) = s.toldStation k f b := by
  rw [State.takeBlock_station, State.station_setStation, State.keepForm_toldStation]

/-- The stations of other positions. -/
theorem State.takeBlock_keepForm_station_ne {j : Nat} (h : j ≠ 16 * k + b.pos) :
    ((s.keepForm k f).takeBlock k f b).station j = s.station j := by
  rw [State.takeBlock_station, State.station_setStation_ne _ _ h, State.keepForm_station]

end

/-! ## Lintel links (R233) -/

section
variable {s : State} {k : Nat}

theorem execLintelPoll_eq {p : Nat} (hk : k ≤ 15) (hmode : s.linkMode k = 1) (hticks : s.md.mode.ticks = true)
    (hidle : (s.link k).polling = false) (hp : nextRack (s.positions k) (s.link k).rack = some p) :
    execLintelPoll k s = .next ((s.setLink k { s.link k with rack := p, polling := true }).setStation (16 * k + p)
      { s.station (16 * k + p) with polled := s.pollWords (16 * k + p) }) := by
  simp [execLintelPoll, Nat.not_lt.mpr hk, hmode, hticks, hidle, hp]

theorem execLintelReplyTimeout_eq (hk : k ≤ 15) (hpoll : (s.link k).polling = true) :
    let rack := 16 * k + (s.link k).rack
    execLintelReplyTimeout k s = .next ((s.setLink k { s.link k with polling := false }).setStation rack
      { s.station rack with missed := (s.station rack).missed + 1 }) := by
  simp [execLintelReplyTimeout, Nat.not_lt.mpr hk, hpoll]

/-- The modules of a link after the words of one module, which fit a rack's 256 words. -/
def putModule (x : Link) (m : Nat) (ws : List Word) : Tbl Word :=
  Tbl.setMany 0 x.modules (256 * x.rack + m % 256) ((ws.take (256 - m % 256)).map fun w => w &&& 0o177_777)

theorem execLintelReply_singleton (m : Nat) (ws : List Word) (hk : k ≤ 15) (hpoll : (s.link k).polling = true)
    (hup : (s.link k).up = true) :
    let rack := 16 * k + (s.link k).rack
    execLintelReply k [(m, ws)] s = .next ((s.setLink k { s.link k with polling := false, modules := putModule (s.link k) m ws }).setStation
      rack { s.station rack with missed := 0, replied := true }) := by
  simp [execLintelReply, putModule, Nat.not_lt.mpr hk, hpoll, hup]

/-- A read inside consecutive writes. -/
theorem Tbl.get_setMany_inside {α : Type} [DecidableEq α] (d : α) (xs : List α) (m : Tbl α) (i j : Nat)
    (h : j < xs.length) : Tbl.get d (Tbl.setMany d m i xs) (i + j) = xs.getD j d := by
  have hread := Tbl.getMany_getElem? d (Tbl.setMany d m i xs) xs.length i j h
  rw [Tbl.getMany_setMany] at hread
  simp [hread]

/-- Words that fit their rack go in whole, from the module's number; a number of 256 carries none. -/
theorem putModule_of_fits {x : Link} {m : Nat} {ws : List Word} (h : m + ws.length ≤ 256) :
    putModule x m ws = Tbl.setMany 0 x.modules (256 * x.rack + m) (ws.map fun w => w &&& 0o177_777) := by
  by_cases hm : m < 256
  · rw [putModule, Nat.mod_eq_of_lt hm, List.take_of_length_le (by omega)]
  · have hnil : ws = [] := List.length_eq_zero_iff.mp (by omega)
    simp [putModule, hnil, Tbl.setMany]

theorem putModule_inside {x : Link} {m : Nat} {ws : List Word} (h : m + ws.length ≤ 256) {j : Nat} (hj : j < ws.length) :
    Tbl.get 0 (putModule x m ws) (256 * x.rack + m + j) = ws.getD j 0 &&& 0o177_777 := by
  rw [putModule_of_fits h, Tbl.get_setMany_inside _ _ _ _ _ (by simpa using hj)]
  simp [List.getD_eq_getElem?_getD, List.getElem?_eq_getElem hj]

theorem putModule_outside {x : Link} {m : Nat} {ws : List Word} (h : m + ws.length ≤ 256) {a : Nat}
    (ha : a < 256 * x.rack + m ∨ 256 * x.rack + m + ws.length ≤ a) :
    Tbl.get 0 (putModule x m ws) a = Tbl.get 0 x.modules a := by
  rw [putModule_of_fits h, Tbl.get_setMany_of_outside _ _ _ _ _ (by simpa using ha)]

end

/-! ## Page-store requests of a station's command (R416, R417, R225) -/

/-- A run of words on a page the store has is at least one page to write. -/
theorem State.workPages_words_ne_nil (s : State) {p off : Nat} {ws : List Word} (hp : p < pageCount) (hws : ws ≠ []) :
    s.workPages (.words p off ws) ≠ [] := by
  simp [State.workPages, State.pagesOf, hws, Nat.not_le.mpr hp]

/-- While a page is under write no request begins (R414). -/
theorem State.beginJobs_of_busy {s : State} (h : s.pages.busy = true) (fuel : Nat) : s.beginJobs fuel = s := by
  cases fuel with
  | zero => rfl
  | succ n => simp [State.beginJobs, h]

/-- In an idle store the first request, with pages to write, takes the grant (R417). -/
theorem State.beginJobs_begins {s : State} {j : PageJob} {rest : List PageJob} (hidle : s.pages.busy = false)
    (hjobs : s.pages.jobs = j :: rest) (hcut : j.cut = false) (hpages : s.workPages j.work ≠ []) (fuel : Nat) :
    ∃ j', (s.beginJobs (fuel + 1)).pages.jobs = j' :: rest ∧ (s.beginJobs (fuel + 1)).pages.busy = true ∧
      j'.ticket = j.ticket ∧ (s.beginJobs (fuel + 1)).rings = s.rings ∧ j'.work = j.work := by
  obtain ⟨e, es, he⟩ := List.exists_cons_of_ne_nil hpages
  simp only [State.beginJobs, hidle, hjobs, hcut, he, Bool.false_eq_true, if_false]
  exact ⟨_, rfl, trivial, rfl, trivial, rfl⟩

/-- A request joined to the jobs, before any begins. -/
def State.withJob (s : State) (j : PageJob) : State := { s with pages := { s.pages with jobs := s.pages.jobs ++ [j] } }

theorem State.queueJob_eq (s : State) (j : PageJob) :
    s.queueJob j = (s.withJob j).beginJobs ((s.pages.jobs ++ [j]).length + 1) := rfl

/-- A request with pages to write, queued behind one under write or into an idle store, is the last of the jobs and the store is
busy; no completion is made (R417). -/
theorem State.queueJob_writes (s : State) (j : PageJob) (hcut : j.cut = false) (hpages : (s.withJob j).workPages j.work ≠ [])
    (h : (s.pages.jobs = [] ∧ s.pages.busy = false) ∨ s.pages.busy = true) :
    ∃ j', (s.queueJob j).pages.jobs = s.pages.jobs ++ [j'] ∧ (s.queueJob j).pages.busy = true ∧ j'.ticket = j.ticket ∧
      (s.queueJob j).rings = s.rings ∧ j'.work = j.work := by
  rw [State.queueJob_eq]
  rcases h with ⟨hempty, hidle⟩ | hbusy
  · have hjobs : (s.withJob j).pages.jobs = [j] := by simp [State.withJob, hempty]
    rw [hempty]
    exact State.beginJobs_begins (s := s.withJob j) hidle hjobs hcut hpages _
  · rw [State.beginJobs_of_busy (s := s.withJob j) hbusy]
    exact ⟨j, rfl, hbusy, rfl, rfl, rfl⟩

@[simp] theorem State.changed_pages (s : State) (c : Cred) (w a b : Nat) : (s.changed c w a b).pages = s.pages := by
  unfold State.changed; split
  · rfl
  · exact State.named_pages ..

@[simp] theorem State.changed_rings (s : State) (c : Cred) (w a b : Nat) : (s.changed c w a b).rings = s.rings := by
  unfold State.changed; split
  · rfl
  · exact State.named_rings ..

section
variable {s s1 : State} {q q1 : Req}

/-- The page-store request of a SUBST_SET (R225): the words its data gives, in the station's pages. -/
def substJob (s1 : State) (q q1 : Req) : PageJob :=
  let i := min 255 q1.desc.a0.toNat
  let first := min 255 q1.desc.a1.toNat
  let n := min (max 1 (min 256 q1.desc.a2.toNat)) (256 - first)
  { owner := s1.pageOwner 1 q1.origin, ticket := some (ticketOf 1 q)
    work := .words (1024 + 4 * i + first / 64) (first % 64) ((List.range n).map fun l => q1.data.getD l 0) }

theorem execSubstSet_taken (h : Taken s 1 0o061 2 q s1 q1) :
    execSubstSet q s = .next ((s1.changedBy (s1.credOf 1 q.origin) q1).queueJob (substJob s1 q q1)) := by
  simp only [execSubstSet, runCommand_taken h]; rfl

/-- It has a page to write: it gives at least one word, and every station's pages are in the store. -/
theorem substJob_writes (s s1 : State) (q q1 : Req) : (s.withJob (substJob s1 q q1)).workPages (substJob s1 q q1).work ≠ [] := by
  refine State.workPages_words_ne_nil _ ?_ ?_
  · simp only [pageCount]; omega
  · rw [← List.length_pos_iff, List.length_map, List.length_range]; omega

theorem execStationStatus_taken (h : Taken s 1 0o062 1 q s1 q1) :
    let i := min 255 q1.desc.a0.toNat
    let st := s1.station i
    let e1 := s1.linkRing (i / 16) && s1.linkEnd (i / 16)
    execStationStatus q s = .next (s1.complete (ticketOf 1 q) { data :=
      [word (if e1 then st.offsetFar else st.offset), word (if e1 then st.offset else st.offsetFar), word st.delta, st.b0,
       lowWord st.dropouts, highWord st.dropouts, lowWord st.badFcs, highWord st.badFcs] }) := by
  simp only [execStationStatus, runCommand_taken h]

theorem execStationService_refused
    (h : Taken s 1 0o060 (serviceRight (bitsOf q.desc.a1 5 0)) q s1 q1)
    (hno : s1.holds = false ∨ s1.linkMode (min 255 q1.desc.a0.toNat / 16) ≠ 2) :
    execStationService q s = .next (s1.complete (ticketOf 1 q) { status := 2 }) := by
  simp only [execStationService, runCommand_taken h]
  rcases hno with hno | hno
  · simp [hno, Reply.refused]
  · simp [hno, Reply.refused]
end

/-! ## Acyclic services: asking (R228–R230) -/

section
variable {s s1 : State} {q q1 : Req}

theorem serviceRight_eq_two_iff (n : Nat) : serviceRight n = 2 ↔ n = 3 ∨ n = 4 := by
  unfold serviceRight; split <;> simp_all

/-- The request a STATION_SERVICE makes of its descriptor, with the link's next TAG (R228). -/
def askedOf (s1 : State) (t : Ticket) (q1 : Req) (service : Nat) : Acyclic :=
  let i := min 255 q1.desc.a0.toNat
  let len := min 64 q1.desc.a3.toNat
  ⟨t, i % 16, service, min 511 q1.desc.a2.toNat, len, (List.range len).map fun j => q1.data.getD j 0,
    (s1.link (i / 16)).tag, 0, false⟩

/-- A request joins those that wait on its link, and the next TAG moves on. -/
def State.waits (s : State) (k : Nat) (a : Acyclic) : State :=
  s.setLink k { s.link k with waiting := (s.link k).waiting ++ [a], tag := ((s.link k).tag + 1) % 4096 }

/-- A lease holder's request that fits a tick waits for its link; one that writes is told as a change (R229, R230). -/
theorem execStationService_waits (h : Taken s 1 0o060 (serviceRight (bitsOf q.desc.a1 5 0)) q s1 q1)
    (hholds : s1.holds = true) (hmode : s1.linkMode (min 255 q1.desc.a0.toNat / 16) = 2)
    (hticks : s1.md.mode.ticks = true)
    (hfits : s1.acyclicFits (min 255 q1.desc.a0.toNat / 16) (bitsOf q.desc.a1 5 0) (min 64 q1.desc.a3.toNat)
      s1.acyclicFrom = true) :
    let asked := s1.waits (min 255 q1.desc.a0.toNat / 16) (askedOf s1 (ticketOf 1 q) q1 (bitsOf q.desc.a1 5 0))
    execStationService q s = .next (if serviceRight (bitsOf q.desc.a1 5 0) = 2 then
      asked.changedBy (s1.credOf 1 q.origin) q1 else asked) := by
  simp only [execStationService, runCommand_taken h]
  rw [if_neg (by simp [hholds, hmode, hticks, hfits])]
  rfl

end

/-! ## Acyclic services: the frame (R204, R206, R228) -/

theorem padGroup_length (ws : List Word) : (padGroup ws).length = 4 * ((ws.length + 3) / 4) := by
  simp only [padGroup, groups, List.length_append, List.length_replicate]
  omega

/-- The words a request carries: the values of PWRITE and SAFESET, and none for any other service. -/
theorem acyclicCall_words_length (a : Acyclic) : (acyclicCall a).words.length =
    if a.service = 3 ∨ a.service = 4 then min a.len a.words.length else 0 := by
  simp only [acyclicCall, requestWords, List.length_take]
  split <;> simp_all

section
variable (s : State) (k : Nat) (c : AcyclicCall)

theorem State.requestFrame_length :
    (s.requestFrame k c).length = 8 + 4 * ((c.words.length + 3) / 4) := by
  simp only [State.requestFrame, List.length_append, padGroup_length, List.length_cons, List.length_nil]

/-- The header words of a request after the first: the tick, the epoch, and the request's own (R206, R228). -/
theorem State.requestFrame_header : ((s.requestFrame k c).drop 1).take 7 =
    [lowWord s.tickNumber, highWord s.tickNumber, lowWord s.viewEpoch, highWord s.viewEpoch,
     word (c.pos * 2 ^ 14 + c.words.length % 128), word (c.service % 64 * 2 ^ 12 + c.tag % 4096), word (c.param * 2 ^ 9)] := rfl

@[simp] theorem State.sendAcyclic_link : (s.sendAcyclic k c).link k =
    { s.link k with acyclicFrame := s.requestFrame k c, wire := s.wireOf k [s.requestFrame k c] } :=
  State.link_setLink ..

end

/-! ## Acyclic services: turns to send (R229) -/

section
variable {s : State} {k at_ : Nat} {a : Acyclic}

/-- With nothing to send, a lease holder's turn passes. -/
theorem execAcyclicRequest_passes (hk : k ≤ 15) (hticks : s.md.mode.ticks = true) (hat : s.acyclicFrom ≤ at_)
    (hholds : s.holds = true) (hnext : (s.link k).nextRequest = none) : execAcyclicRequest ⟨k, at_, none⟩ s = .next s := by
  unfold execAcyclicRequest
  dsimp only
  rw [if_neg (by simp [hticks]; omega), if_pos hholds, hnext]

/-- The link after its next request is taken up. -/
def State.takesUp (s : State) (k : Nat) (r : Acyclic) (rest : List Acyclic) : State :=
  s.setLink k { s.link k with outstanding := some r, waiting := rest }

@[simp] theorem State.takesUp_link (r : Acyclic) (rest : List Acyclic) :
    (s.takesUp k r rest).link k = { s.link k with outstanding := some r, waiting := rest } :=
  State.link_setLink ..

/-- A request that fits goes out on the line, or as a retry in an arch to the partner (R229). -/
theorem execAcyclicRequest_fits {r : Acyclic} {rest : List Acyclic} (hk : k ≤ 15) (hticks : s.md.mode.ticks = true)
    (hat : s.acyclicFrom ≤ at_) (hholds : s.holds = true) (hnext : (s.link k).nextRequest = some (r, rest))
    (hfits : s.acyclicFits k r.service r.len at_ = true) : execAcyclicRequest ⟨k, at_, none⟩ s =
      .next (if 1 < r.tries ∧ s.archOn then
          (s.takesUp k r rest).setLink k { (s.takesUp k r rest).link k with callOut := some (acyclicCall r) }
        else (s.takesUp k r rest).sendAcyclic k (acyclicCall r)) := by
  unfold execAcyclicRequest
  dsimp only
  rw [if_neg (by simp [hticks]; omega), if_pos hholds, hnext]
  dsimp only
  rw [if_neg (by simp [hfits])]
  split <;> rfl

/-- The frame of a request on the line names it by its TAG, with the words its service carries (R228). -/
theorem State.sendAcyclic_frame (s : State) (k : Nat) (a : Acyclic) :
    let n := if a.service = 3 ∨ a.service = 4 then min a.len a.words.length else 0
    let frame := ((s.sendAcyclic k (acyclicCall a)).link k).acyclicFrame
    frame.length = 8 + 4 * ((n + 3) / 4) ∧ (frame.drop 1).take 7 =
      [word s.tickNumber, word (s.tickNumber / 2 ^ 18), word s.viewEpoch, word (s.viewEpoch / 2 ^ 18),
       word (a.pos * 2 ^ 14 + n % 128), word (a.service % 64 * 2 ^ 12 + a.tag % 4096), word (a.param * 2 ^ 9)] := by
  rw [← acyclicCall_words_length, State.sendAcyclic_link]
  exact ⟨State.requestFrame_length s k (acyclicCall a), State.requestFrame_header s k (acyclicCall a)⟩

theorem Link.nextRequest_of_waiting {x : Link} {rest : List Acyclic} (hout : x.outstanding = none) (hwait : x.waiting = a :: rest) :
    x.nextRequest = some ({ a with out := true, tries := 1 }, rest) := by
  simp [Link.nextRequest, hout, hwait]

theorem Link.nextRequest_of_outstanding {x : Link} (hout : x.outstanding = some a) :
    x.nextRequest = if a.out then none else some ({ a with out := true, tries := a.tries + 1 }, x.waiting) := by
  simp [Link.nextRequest, hout]

/-- The partner's end sends the request its primary handed to it (R229). -/
theorem execAcyclicRequest_partner {call : AcyclicCall} (hk : k ≤ 15) (hticks : s.md.mode.ticks = true)
    (hat : s.acyclicFrom ≤ at_) (hholds : s.holds = false) (harch : s.archOn = true) (hnat : s.linkNative k = true) :
    execAcyclicRequest ⟨k, at_, some call⟩ s = .next (s.sendAcyclic k call) := by
  unfold execAcyclicRequest
  dsimp only
  rw [if_neg (by simp [hticks]; omega), if_neg (by simp [hholds]), if_pos ⟨harch, hnat⟩]

end

/-! ## Acyclic services: replies and timeouts (R203, R228, R229) -/

section
variable {s : State} {k : Nat} {f : AcyclicFrame} {a : Acyclic}

/-- What a reply tells of its request: DONE with the data, or REFUSED with the station's STATUS (R228). -/
def replyOf (f : AcyclicFrame) : Reply :=
  let status := bitsOf (f.words.getD 7 0) 8 0
  if status = 0 then { data := (f.words.drop 8).take (min 64 (bitsOf (f.words.getD 5 0) 6 0)) }
  else { status := 2, detail := status }

theorem replyMatches_iff : replyMatches k a f = true ↔ bitsOf (f.words.getD 0 0) 17 13 = 7 ∧
    bitsOf (f.words.getD 0 0) 10 7 = k ∧ bitsOf (f.words.getD 5 0) 17 14 = a.pos ∧ bitsOf (f.words.getD 6 0) 11 0 = a.tag := by
  simp [replyMatches, and_assoc]

/-- A reply to the request outstanding completes it. -/
theorem execAcyclicReply_matches (hk : k ≤ 15) (het : f.etype = s.slEtype) (hholds : s.holds = true)
    (hout : (s.link k).outstanding = some a) (hsent : a.out = true) (hmatch : replyMatches k a f = true) :
    execAcyclicReply k true f s =
      .next ((s.setLink k { s.link k with outstanding := none }).complete a.ticket (replyOf f)) := by
  simp [execAcyclicReply, Nat.not_lt.mpr hk, het, hholds, hout, hsent, hmatch, replyOf, stRefused]

/-- The partner's end hands a reply on to the primary. -/
theorem execAcyclicReply_partner (hk : k ≤ 15) (het : f.etype = s.slEtype) (hholds : s.holds = false)
    (harch : s.archOn = true) :
    execAcyclicReply k true f s = .next (s.setLink k { s.link k with replyOut := some f }) := by
  simp [execAcyclicReply, Nat.not_lt.mpr hk, het, hholds, harch]

theorem execAcyclicTimeout_retries (hk : k ≤ 15) (hout : (s.link k).outstanding = some a) (hsent : a.out = true)
    (htries : a.tries < 3) :
    execAcyclicTimeout k s = .next (s.setLink k { s.link k with outstanding := some { a with out := false } }) := by
  simp [execAcyclicTimeout, Nat.not_lt.mpr hk, hout, hsent, htries]

theorem execAcyclicTimeout_third (hk : k ≤ 15) (hout : (s.link k).outstanding = some a) (hsent : a.out = true)
    (htries : 3 ≤ a.tries) : execAcyclicTimeout k s =
      .next ((s.setLink k { s.link k with outstanding := none }).complete a.ticket { status := 5 }) := by
  simp [execAcyclicTimeout, Nat.not_lt.mpr hk, hout, hsent, Nat.not_lt.mpr htries, stNoresp]

end

/-! ## The obligation -/

/-- Settles O47, one command after another: each is the lemma about it above. -/
theorem stationLinks : Obligations.StationLinks := by
  unfold Obligations.StationLinks
  refine ⟨fun s k r f b c o m ws hk => ⟨?linkUp, ?turn, ?emission, ?relay, ?iForm, ?poll, ?reply⟩,
    fun s s1 q q1 k at_ f a call hk => ⟨?service, ?subst, ?status, ?request, ?answer, ?timeout⟩⟩
  case linkUp => exact fun full => execPortLinkUp_eq hk full
  case turn =>
    intro hring het hup
    refine ⟨fun hports hticks => ⟨execPortTurn_turns hk hring het hup hports hticks, fun hblocks => ?_⟩,
      execPortTurn_unsynced hk hring het hup⟩
    rw [hblocks]
    exact iFormWords_singleton_split c.header o
  case emission =>
    exact fun hmode hnat => ⟨execRelayedCopyEmission_missed hk hmode hnat, execRelayedCopyEmission_relayed hk hmode hnat⟩
  case relay =>
    intro hmode harch hlink
    subst hlink
    refine ⟨_, execRelayReceipt_eq hk hmode harch, ?_, rfl, State.takeRelayed_work _ r, fun hblocks => ?_⟩
    · exact (State.takeRelayed_link _ r r.link).trans (State.link_setLink ..)
    · rw [State.takeRelayed_singleton hblocks]
      exact State.station_setStation ..
  case iForm =>
    intro hticks het horigin hblocks
    have hr : Receives s k f := ⟨hk, hticks, het, horigin⟩
    rcases Bool.eq_false_or_eq_true f.fcsOk with hf | hf
    · obtain ⟨hforms, hforwarded, hlate, hfcs⟩ := keepsForm_takeBlock s k f b
      have hst := State.takeBlock_keepForm_station_self s k f b
      refine ⟨_, execIFormReceipt_good hr hf hblocks, hforms, hforwarded, hlate, hfcs,
        fun j hj => State.takeBlock_keepForm_station_ne s k f b hj, State.takeBlock_work .., by simp [hf], fun _ => ?_⟩
      rw [hst]
      refine ⟨State.toldStation_present .., State.takeBlock_maxSepoch .., fun hvalid hepoch => ?_, fun hrefused => ?_,
        fun hepoch => ⟨?_, State.takeBlock_md_of_stale (s.keepForm k f) k f b hepoch⟩⟩
      · rw [State.toldStation_accepted hvalid hepoch]
        refine ⟨rfl, State.takeBlock_md_of_current _ k f b (Nat.not_lt.mpr hepoch), fun hown => ?_, fun hfar => ?_⟩
        · simp [hown, offsetOf]
        · simp [hfar]
      · rw [State.toldStation_refused hrefused]
        exact ⟨rfl, rfl⟩
      · rw [State.takeBlock_link_of_stale (s.keepForm k f) k f b hepoch]
    · obtain ⟨hforms, hforwarded, hlate, hfcs⟩ := keepsForm_setStation s k f (16 * k + b.pos)
        { s.station (16 * k + b.pos) with badFcs := ((s.station (16 * k + b.pos)).badFcs + 1) % 2 ^ 36 }
      exact ⟨_, execIFormReceipt_bad hr hf hblocks, hforms, hforwarded, hlate, hfcs,
        fun j hj => State.station_setStation_ne _ _ hj, rfl, fun _ => ⟨State.station_setStation .., rfl⟩, by simp [hf]⟩
  case poll => exact fun hmode hticks hidle p hp => execLintelPoll_eq hk hmode hticks hidle hp
  case reply =>
    refine fun hpoll => ⟨execLintelReplyTimeout_eq hk hpoll, fun hup hfits =>
      ⟨_, execLintelReply_singleton m ws hk hpoll hup, ?_, State.station_setStation .., ?_⟩⟩
    · rw [State.link_setStation, State.link_setLink]
    · rw [State.link_setStation, State.link_setLink]
      exact ⟨fun j hj => putModule_inside hfits hj, fun j hj => putModule_outside hfits hj⟩
  case service =>
    refine fun h => ⟨fun hholds hmode hticks hfits => ⟨fun hreads => ?_, fun hwrites => ?_⟩, execStationService_refused h⟩
    · refine (execStationService_waits h hholds hmode hticks hfits).trans ?_
      rw [if_neg (by rwa [serviceRight_eq_two_iff])]
      rfl
    · refine (execStationService_waits h hholds hmode hticks hfits).trans ?_
      rw [if_pos (by rwa [serviceRight_eq_two_iff])]
      rfl
  case subst =>
    intro h hstore
    obtain ⟨j, hjobs, hbusy, hticket, hrings, hwork⟩ := State.queueJob_writes (s1.changedBy (s1.credOf 1 q.origin) q1)
      (substJob s1 q q1) rfl (substJob_writes _ s1 q q1) (by simpa [State.changedBy] using hstore)
    refine ⟨_, j, execSubstSet_taken h, hjobs.trans ?_, hbusy, hticket, hrings.trans ?_, hwork⟩
    · simp [State.changedBy]
    · simp [State.changedBy]
  case status => exact fun h => execStationStatus_taken h
  case request =>
    refine fun hticks hat => ⟨fun hholds hfits => ⟨fun rest hout hwait => ?_, fun hout hidle htries => ?_, fun hout hsent => ?_⟩,
      fun hholds harch hnat => execAcyclicRequest_partner hk hticks hat hholds harch hnat⟩
    · refine ⟨_, execAcyclicRequest_fits hk hticks hat hholds (Link.nextRequest_of_waiting hout hwait) hfits, ?_⟩
      rw [if_neg (by simp)]
      refine ⟨?_, ?_, State.sendAcyclic_frame _ k _, rfl⟩
      · simp
      · simp
    · have hnext := Link.nextRequest_of_outstanding hout
      rw [if_neg (by simp [hidle])] at hnext
      refine ⟨_, execAcyclicRequest_fits hk hticks hat hholds hnext hfits, ?_⟩
      by_cases harch : s.archOn = true
      · rw [if_pos ⟨Nat.lt_add_of_pos_left htries, harch⟩]
        simp [harch, acyclicCall]
      · rw [if_neg (by simp [harch])]
        refine ⟨?_, ?_, fun _ => State.sendAcyclic_frame _ k _, by simp [harch]⟩
        · simp
        · simp
    · have hnext := Link.nextRequest_of_outstanding hout
      rw [if_pos hsent] at hnext
      exact execAcyclicRequest_passes hk hticks hat hholds hnext
  case answer =>
    refine fun het => ⟨fun hholds hout hsent hkind hlink hpos htag => ?_, execAcyclicReply_partner hk het⟩
    have hreply := execAcyclicReply_matches hk het hholds hout hsent (replyMatches_iff.mpr ⟨hkind, hlink, hpos, htag⟩)
    refine ⟨fun hdone => hreply.trans ?_, fun hrefused => hreply.trans ?_⟩
    · rw [replyOf, if_pos hdone]
    · rw [replyOf, if_neg hrefused]
  case timeout =>
    exact fun hout hsent => ⟨execAcyclicTimeout_retries hk hout hsent, execAcyclicTimeout_third hk hout hsent⟩

end Sys2Proof.Machine
end
